-- ==== Sys2Proof/Word.lean ====
section
/-!
DEFINITION. The value types of 00_scope.md R12, R13 and R15: bytes, byte strings, bounded integers and exact rationals.
A `UIntN` is `BitVec N` (R84: "A model gives such fields bounded types"), a `SIntN` is `BitVec N` read with `toInt`.
-/

namespace Sys2Proof

/-- `Byte` = `UInt8` (R13). -/
abbrev Byte := BitVec 8

/-- `Bytes`: a finite sequence of bytes, of any length (R13, R84). -/
abbrev Bytes := List Byte

/-- `Q`: the field of exact rational numbers (R15). -/
abbrev Q := Rat

abbrev UInt3  := BitVec 3
abbrev UInt4  := BitVec 4
abbrev UInt7  := BitVec 7
abbrev UInt12 := BitVec 12
abbrev UInt17 := BitVec 17
abbrev UInt24 := BitVec 24

/-- `CallsignIn`: a finite sequence of 7-bit characters of any length (R84). -/
abbrev CallsignIn := List UInt7

end Sys2Proof
end

