-- ==== Sys2Proof/Config.lean ====
section
/-!
DEFINITION. The configuration record of 00_scope.md R9 and 10_state.md R34: four parameters, fixed when the hardware is
built, which no request reads back or writes. They stand in the machine's state as a constant field (R30 item 3), so that a
statement about every state is a statement about every configuration.
-/

namespace Sys2Proof

/-- `CRC_FORM`: which table-driven CRC update equation is used (R9, R122). -/
inductive CrcForm where
  | icd
  | xmodem
  deriving DecidableEq, Repr

/-- `ROUND_MODE`: how `ROUND` breaks an exact tie (R9, R170). -/
inductive RoundMode where
  | halfEven
  | halfAway
  deriving DecidableEq, Repr

/-- `Config = { CRC_FORM, ROUND_MODE, REASM_MAX_BYTES, REASM_INSTANCES }` (R34). -/
structure Config where
  /-- `CRC_FORM`. -/
  crcForm : CrcForm
  /-- `ROUND_MODE`. -/
  roundMode : RoundMode
  /-- `REASM_MAX_BYTES`: the most bytes a reassembler may retain; a natural ≥ 62 (R9). -/
  reasmMaxBytes : Nat
  /-- `REASM_INSTANCES`: the number of reassembler instances; a natural ≥ 1 (R9). -/
  reasmInstances : Nat
  deriving DecidableEq, Repr

/-- The bounds R9 puts on the two natural parameters. -/
abbrev Config.Legal (c : Config) : Prop :=
  62 ≤ c.reasmMaxBytes ∧ 1 ≤ c.reasmInstances

/-- The values 95_test_vectors.md is evaluated at. `CRC_FORM` and `ROUND_MODE` are the spec's own defaults (R9); 64 bytes and
2 instances are DESIGN CHOICE where R9 leaves them OPEN (notes/assumptions/3.md: unsafe for statements about this one value). -/
def Config.vectors : Config where
  crcForm := .icd
  roundMode := .halfEven
  reasmMaxBytes := 64
  reasmInstances := 2

end Sys2Proof
end

