-- ==== Sys2Proof/Machine/Operands.lean ====
section
/-!
DEFINITION. The primitives the operation rules are written in: byte strings (00_scope.md R13), multi-byte packing (R14),
`clamp` (R15) and `ROUND` (42_field_transforms.md R170).
-/

namespace Sys2Proof.Machine

/-! ## Byte strings (R13) -/

/-- `s[i]`, defined for i < len(s). No rule reads at or beyond len(s); the 0 that stands there is never used
(notes/assumptions/11.md). -/
def byteAt (s : Bytes) (i : Nat) : Byte := s.getD i 0

/-- `s[i..j)`. -/
def slice (s : Bytes) (i j : Nat) : Bytes := (s.take j).drop i

/-- `find(b, s, k)`: the least index i ≥ k with s[i] = b, or `none`. -/
def find (b : Byte) (s : Bytes) (k : Nat) : Option Nat :=
  ((s.drop k).findIdx? fun x => x == b).map fun i => k + i

/-! ## Multi-byte packing (R14) -/

def be16 (v : BitVec 16) : Bytes := [v.extractLsb' 8 8, v.extractLsb' 0 8]

def le16 (v : BitVec 16) : Bytes := [v.extractLsb' 0 8, v.extractLsb' 8 8]

def be24 (v : BitVec 24) : Bytes := [v.extractLsb' 16 8, v.extractLsb' 8 8, v.extractLsb' 0 8]

/-- `rd_be16(s, i) = s[i]·256 + s[i+1]`. -/
def rdBe16 (s : Bytes) (i : Nat) : BitVec 16 := byteAt s i ++ byteAt s (i + 1)

/-- `rd_le16(s, i) = s[i] + s[i+1]·256`. -/
def rdLe16 (s : Bytes) (i : Nat) : BitVec 16 := byteAt s (i + 1) ++ byteAt s i

/-- `rd_be24(s, i) = s[i]·65536 + s[i+1]·256 + s[i+2]`. -/
def rdBe24 (s : Bytes) (i : Nat) : BitVec 24 := byteAt s i ++ byteAt s (i + 1) ++ byteAt s (i + 2)

/-! ## Numbers -/

/-- `clamp(x, lo, hi)` on rationals (R15). -/
def clampQ (x lo hi : Q) : Q := if x < lo then lo else if hi < x then hi else x

/-- `clamp(x, lo, hi)` on integers (R15). -/
def clampInt (x lo hi : Int) : Int := if x < lo then lo else if hi < x then hi else x

/-- `ROUND(q)` (R170): the nearest integer; `ROUND_MODE` breaks an exact tie. -/
def roundQ (mode : RoundMode) (q : Q) : Int :=
  let f := q.floor
  let d := q - f
  if d < 1 / 2 then f
  else if 1 / 2 < d then f + 1
  else
    match mode with
    | .halfEven => if f % 2 = 0 then f else f + 1
    | .halfAway => if 0 < q then f + 1 else f

end Sys2Proof.Machine
end

