-- ==== Sys2Proof/Syntax.lean ====
section
/-!
DEFINITION. The operand and result types of 30_encoding.md R84 to R90, the errors of 60_exceptions.md R301, and `Instr`: one
constructor per row of spec/opcode_table.json (30 request operations and the 3 payload kinds MSG_DEC dispatches on).
-/

namespace Sys2Proof

/-! ## Messages given to the encoders -/

/-- R85. -/
structure Heartbeat where
  status1 : Byte
  status2 : Byte
  timestampSeconds : BitVec 32
  messageCount : BitVec 16
  deriving DecidableEq, Repr

/-- R86. -/
structure Position where
  latitudeDeg : Q
  longitudeDeg : Q
  altitudeFt : Option Q
  miscIndicators : UInt4
  deriving DecidableEq, Repr

/-- R87. `verticalSpeedFpm` is a `SInt32`: its value is the word read as two's complement (`toInt`). -/
structure Velocity where
  groundSpeedKt : Option (BitVec 16)
  verticalSpeedFpm : Option (BitVec 32)
  trackDeg : Q
  deriving DecidableEq, Repr

/-- R88. -/
structure OwnshipReport where
  participantAddress : BitVec 32
  position : Position
  velocity : Velocity
  navIntegrity : UInt4
  navAccuracy : UInt4
  emitterCategory : Byte
  callsign : CallsignIn
  emergencyCode : UInt4
  deriving DecidableEq, Repr

/-- R89. -/
structure TrafficReport where
  trafficAlert : Bool
  addressType : UInt3
  participantAddress : BitVec 32
  position : Position
  velocity : Velocity
  navIntegrity : UInt4
  navAccuracy : UInt4
  emitterCategory : Byte
  callsign : CallsignIn
  emergencyCode : UInt4
  deriving DecidableEq, Repr

/-- `Message = HB | OWN | TRAF` (R90). -/
inductive Message where
  | hb (m : Heartbeat)
  | own (m : OwnshipReport)
  | traf (m : TrafficReport)
  deriving DecidableEq, Repr

/-! ## Messages the decoders return -/

/-- `CallChar`: an ASCII character, or the marker that replaces a non-ASCII byte. The marker's character value is not in
the spec, so it is a constructor of its own, distinct from every character (R84, 93_implementation_defined.md A13). -/
inductive CallChar where
  | ascii (c : UInt7)
  | replacement
  deriving DecidableEq, Repr

/-- `CallsignOut` (R84); DEC_CS gives at most 8 characters. -/
abbrev CallsignOut := List CallChar

/-- R90; bit 7 of `status2` reads as 0. -/
structure DHeartbeat where
  status1 : Byte
  status2 : Byte
  timestampSeconds : UInt17
  messageCount : BitVec 16
  deriving DecidableEq, Repr

/-- R90. -/
structure DPosition where
  latitudeDeg : Q
  longitudeDeg : Q
  altitudeFt : Option Int
  miscIndicators : UInt4
  deriving DecidableEq, Repr

/-- R90. -/
structure DVelocity where
  groundSpeedKt : Option UInt12
  verticalSpeedFpm : Option Int
  trackDeg : Q
  deriving DecidableEq, Repr

/-- R90. -/
structure DOwnshipReport where
  participantAddress : UInt24
  position : DPosition
  velocity : DVelocity
  navIntegrity : UInt4
  navAccuracy : UInt4
  emitterCategory : Byte
  callsign : CallsignOut
  emergencyCode : UInt4
  deriving DecidableEq, Repr

/-- R90. -/
structure DTrafficReport where
  trafficAlert : Bool
  addressType : UInt3
  participantAddress : UInt24
  position : DPosition
  velocity : DVelocity
  navIntegrity : UInt4
  navAccuracy : UInt4
  emitterCategory : Byte
  callsign : CallsignOut
  emergencyCode : UInt4
  deriving DecidableEq, Repr

/-- R90. -/
inductive DecodedMessage where
  | hb (m : DHeartbeat)
  | own (m : DOwnshipReport)
  | traf (m : DTrafficReport)
  deriving DecidableEq, Repr

/-! ## Errors, items, responses -/

/-- The errors of R301 (every row of its table but OK). Only `UnknownKind` carries information (R302). -/
inductive ProtocolError where
  /-- FrameError: first or last byte is not 0x7E, or length < 4. -/
  | notAFrame
  /-- FrameError: the data ends in an unmatched 0x7D. -/
  | truncatedEscape
  /-- FrameError: the unescaped body has 2 bytes or fewer. -/
  | emptyPayload
  /-- FrameError: the received CRC differs from the CRC of the payload. -/
  | crcMismatch
  /-- FrameError: the retained buffer exceeds REASM_MAX_BYTES; a FEED item only. -/
  | bufferOverflow
  /-- MessageError: the payload is empty, or shorter than its kind's fixed length. -/
  | truncated
  /-- MessageError: byte 0 is no known ID; it carries that byte and the whole payload. -/
  | unknownKind (id : Byte) (payload : Bytes)
  /-- MessageError: the 24-bit value or participant address exceeds 0xFFFFFF. -/
  | invalidAddress
  /-- Command error: unassigned op, or inst ≥ REASM_INSTANCES on FEED or REASM_RESET. -/
  | illegalCommand
  deriving DecidableEq, Repr

/-- `Item = Result DecodedMessage ProtocolError` (R90, R276). -/
inductive Item where
  | ok (m : DecodedMessage)
  | err (e : ProtocolError)
  deriving DecidableEq, Repr

/-- The `result` part of a response (R81): one constructor per result type of R82's table, `noInfo` for an error that
records nothing, and `unknownKind` for the one error that does (R302). -/
inductive Result where
  | noInfo
  | unit
  | u16 (v : BitVec 16)
  | u24 (v : UInt24)
  | u12 (v : UInt12)
  | byte (v : Byte)
  | bytes (b : Bytes)
  | rational (q : Q)
  | optInt (v : Option Int)
  | optU12 (v : Option UInt12)
  | nibbles (hi lo : UInt4)
  | callsign (c : CallsignOut)
  | message (m : DecodedMessage)
  | items (l : List Item)
  | unknownKind (id : Byte) (payload : Bytes)
  deriving DecidableEq, Repr

/-- A response `{ status : UInt8, result }` (R81). -/
structure Response where
  status : Byte
  result : Result
  deriving DecidableEq, Repr

/-! ## Requests -/

/-- The typed operand records of R82's "operands" column, one constructor per record type. They are not serialized
further (R99). -/
inductive Args where
  /-- REASM_RESET: none. -/
  | none
  /-- `Bytes`: CRC16, ESCAPE, UNESCAPE, WRAP, UNWRAP, MSG_DEC, DECODE_FRAME, FEED. -/
  | bytes (b : Bytes)
  /-- `Bytes (exactly 3)`: UNPACK24. -/
  | bytes3 (b : Vector Byte 3)
  /-- `Bytes (exactly 8)`: DEC_CS. -/
  | bytes8 (b : Vector Byte 8)
  /-- `UInt32`: PACK24. -/
  | u32 (v : BitVec 32)
  /-- `Q`: ENC_LAT, ENC_LON, ENC_TRK. -/
  | rational (q : Q)
  /-- `Option Q`: ENC_ALT. -/
  | optRational (q : Option Q)
  /-- `UInt24`: DEC_LATLON. -/
  | u24 (v : UInt24)
  /-- `UInt12`: DEC_ALT, DEC_GS, DEC_VS. -/
  | u12 (v : UInt12)
  /-- `UInt8`: DEC_TRK, UNPACK_NIB. -/
  | u8 (v : Byte)
  /-- `Option UInt16`: ENC_GS. -/
  | optU16 (v : Option (BitVec 16))
  /-- `Option SInt32`: ENC_VS. -/
  | optS32 (v : Option (BitVec 32))
  /-- `CallsignIn`: ENC_CS. -/
  | callsign (c : CallsignIn)
  /-- `hi : UInt4, lo : UInt4`: PACK_NIB. -/
  | nibbles (hi lo : UInt4)
  /-- `Heartbeat`: MSG_ENC_HB. -/
  | heartbeat (m : Heartbeat)
  /-- `OwnshipReport`: MSG_ENC_OWN. -/
  | ownship (m : OwnshipReport)
  /-- `TrafficReport`: MSG_ENC_TRAF. -/
  | traffic (m : TrafficReport)
  /-- `Message`: ENCODE_FRAME. -/
  | message (m : Message)
  deriving DecidableEq, Repr

/-- A request `{ op : UInt8, inst : UInt8, args }` (R80). -/
structure Request where
  op : Byte
  inst : Byte
  args : Args
  deriving DecidableEq, Repr

/-! ## Instructions -/

/-- One constructor per row of spec/opcode_table.json, in the table's order. The last three are the rows of the second
encoding space, a payload's ID byte (R96); each holds the whole payload. -/
inductive Instr where
  | crc16 (data : Bytes)
  | escape (data : Bytes)
  | unescape (data : Bytes)
  | wrap (payload : Bytes)
  | unwrap (wire : Bytes)
  | pack24 (v : BitVec 32)
  | unpack24 (b : Vector Byte 3)
  | encLat (deg : Q)
  | encLon (deg : Q)
  | decLatLon (raw : UInt24)
  | encAlt (ft : Option Q)
  | decAlt (raw : UInt12)
  | encGs (kt : Option (BitVec 16))
  | decGs (raw : UInt12)
  | encVs (fpm : Option (BitVec 32))
  | decVs (raw : UInt12)
  | encTrk (deg : Q)
  | decTrk (raw : Byte)
  | encCs (cs : CallsignIn)
  | decCs (b : Vector Byte 8)
  | packNib (hi lo : UInt4)
  | unpackNib (b : Byte)
  | msgEncHb (m : Heartbeat)
  | msgEncOwn (m : OwnshipReport)
  | msgEncTraf (m : TrafficReport)
  | msgDec (payload : Bytes)
  | encodeFrame (m : Message)
  | decodeFrame (wire : Bytes)
  | feed (inst : Byte) (data : Bytes)
  | reasmReset (inst : Byte)
  | payloadHeartbeat (p : Bytes)
  | payloadOwnship (p : Bytes)
  | payloadTraffic (p : Bytes)
  deriving DecidableEq, Repr

end Sys2Proof
end

