-- ==== Sys2Proof/Machine/Flags.lean ====
section
/-!
DEFINITION. The CORE has no flags, condition codes or predicates (10_state.md R33): an operation reports its outcome only in
its response status. This file gives the status codes (60_exceptions.md R301) and the two shapes of a response (R81, R302).
-/

namespace Sys2Proof.Machine

/-- The status code of an error (R301). OK is 0x00. -/
def statusOf (e : ProtocolError) : Byte :=
  match e with
  | .notAFrame => 0x01
  | .truncatedEscape => 0x02
  | .emptyPayload => 0x03
  | .crcMismatch => 0x04
  | .bufferOverflow => 0x05
  | .truncated => 0x11
  | .unknownKind _ _ => 0x12
  | .invalidAddress => 0x13
  | .illegalCommand => 0x21

/-- What an error records (R302): UnknownKind its ID and payload, every other error nothing. -/
def infoOf (e : ProtocolError) : Result :=
  match e with
  | .unknownKind id payload => .unknownKind id payload
  | .notAFrame => .noInfo
  | .truncatedEscape => .noInfo
  | .emptyPayload => .noInfo
  | .crcMismatch => .noInfo
  | .bufferOverflow => .noInfo
  | .truncated => .noInfo
  | .invalidAddress => .noInfo
  | .illegalCommand => .noInfo

/-- The response of an operation that completed: status 0x00 and its result (R81). -/
def okResponse (r : Result) : Response := ⟨0x00, r⟩

/-- The response of an operation that met an error (R81, R300, R302). -/
def errResponse (e : ProtocolError) : Response := ⟨statusOf e, infoOf e⟩

/-- The response to an operation's outcome (R16, R81). -/
def responseOf (x : Except ProtocolError Result) : Response :=
  match x with
  | .ok r => okResponse r
  | .error e => errResponse e

/-- The item of a frame's outcome (R276). -/
def itemOf (x : Except ProtocolError DecodedMessage) : Item :=
  match x with
  | .ok m => .ok m
  | .error e => .err e

end Sys2Proof.Machine
end

