-- ==== Sys2Proof/WellFormed.lean ====
section
/-!
DEFINITION. Which instructions an encoding can hold. The typed operands of a request are bounded by their types (R84), so
every request instruction is well-formed; a payload instruction must begin with its kind's ID and reach its kind's fixed
length (30_encoding.md R96, 43_message_codec.md R241).
-/

namespace Sys2Proof

/-- `p` can be a payload with ID `id` and fixed length `need`: byte 0 is the ID and no byte of the fixed length is missing.
A longer payload is allowed, its extra bytes are ignored (R241). -/
def isPayload (id : Byte) (need : Nat) (p : Bytes) : Bool :=
  p.head? == some id && decide (need ≤ p.length)

/-- Well-formedness of an instruction. -/
def wellFormed (i : Instr) : Bool :=
  match i with
  | .crc16 _ => true
  | .escape _ => true
  | .unescape _ => true
  | .wrap _ => true
  | .unwrap _ => true
  | .pack24 _ => true
  | .unpack24 _ => true
  | .encLat _ => true
  | .encLon _ => true
  | .decLatLon _ => true
  | .encAlt _ => true
  | .decAlt _ => true
  | .encGs _ => true
  | .decGs _ => true
  | .encVs _ => true
  | .decVs _ => true
  | .encTrk _ => true
  | .decTrk _ => true
  | .encCs _ => true
  | .decCs _ => true
  | .packNib _ _ => true
  | .unpackNib _ => true
  | .msgEncHb _ => true
  | .msgEncOwn _ => true
  | .msgEncTraf _ => true
  | .msgDec _ => true
  | .encodeFrame _ => true
  | .decodeFrame _ => true
  | .feed _ _ => true
  | .reasmReset _ => true
  | .payloadHeartbeat p => isPayload 0x00 7 p
  | .payloadOwnship p => isPayload 0x0A 28 p
  | .payloadTraffic p => isPayload 0x14 28 p

end Sys2Proof
end

