-- ==== Sys2Proof/Decode.lean ====
section
/-!
DEFINITION. Decoding and encoding, from the two opcode maps of 30_encoding.md: a request's `op` byte (R82) and a payload's ID
byte (R96). Decoding is total and rejects by name; the encoder is written from the same tables.
-/

namespace Sys2Proof

/-! ## The request opcode map (R82) -/

/-- The 30 operations of R82. -/
inductive Operation where
  | crc16
  | escape
  | unescape
  | wrap
  | unwrap
  | pack24
  | unpack24
  | encLat
  | encLon
  | decLatLon
  | encAlt
  | decAlt
  | encGs
  | decGs
  | encVs
  | decVs
  | encTrk
  | decTrk
  | encCs
  | decCs
  | packNib
  | unpackNib
  | msgEncHb
  | msgEncOwn
  | msgEncTraf
  | msgDec
  | encodeFrame
  | decodeFrame
  | feed
  | reasmReset
  deriving DecidableEq, Repr

/-- R82's rows of the CRC engine, the byte stuffer and the framer. -/
def framingRows : List (Byte × Operation) :=
  [(0x01, .crc16), (0x02, .escape), (0x03, .unescape), (0x04, .wrap), (0x05, .unwrap)]

/-- R82's rows of the field transforms. -/
def fieldRows : List (Byte × Operation) :=
  [(0x10, .pack24), (0x11, .unpack24), (0x12, .encLat), (0x13, .encLon), (0x14, .decLatLon), (0x15, .encAlt),
   (0x16, .decAlt), (0x17, .encGs), (0x18, .decGs), (0x19, .encVs), (0x1A, .decVs), (0x1B, .encTrk), (0x1C, .decTrk),
   (0x1D, .encCs), (0x1E, .decCs), (0x1F, .packNib), (0x20, .unpackNib)]

/-- R82's rows of the message codec. -/
def messageRows : List (Byte × Operation) :=
  [(0x30, .msgEncHb), (0x31, .msgEncOwn), (0x32, .msgEncTraf), (0x38, .msgDec), (0x40, .encodeFrame),
   (0x41, .decodeFrame)]

/-- R82's rows of the reassembler. -/
def reassemblerRows : List (Byte × Operation) :=
  [(0x50, .feed), (0x51, .reasmReset)]

/-- R82's table: opcode byte and operation. -/
def operationTable : List (Byte × Operation) :=
  framingRows ++ fieldRows ++ messageRows ++ reassemblerRows

/-- The operation an opcode byte selects, if R82 lists it. -/
def operationOf (op : Byte) : Option Operation :=
  (operationTable.find? fun row => row.1 == op).map (·.2)

/-! ## Reading an operand record at the type R82 gives -/

def Args.bytes? : Args → Option Bytes
  | .bytes x => some x
  | _ => Option.none

def Args.bytes3? : Args → Option (Vector Byte 3)
  | .bytes3 x => some x
  | _ => Option.none

def Args.bytes8? : Args → Option (Vector Byte 8)
  | .bytes8 x => some x
  | _ => Option.none

def Args.u32? : Args → Option (BitVec 32)
  | .u32 x => some x
  | _ => Option.none

def Args.rational? : Args → Option Q
  | .rational x => some x
  | _ => Option.none

def Args.optRational? : Args → Option (Option Q)
  | .optRational x => some x
  | _ => Option.none

def Args.u24? : Args → Option UInt24
  | .u24 x => some x
  | _ => Option.none

def Args.u12? : Args → Option UInt12
  | .u12 x => some x
  | _ => Option.none

def Args.u8? : Args → Option Byte
  | .u8 x => some x
  | _ => Option.none

def Args.optU16? : Args → Option (Option (BitVec 16))
  | .optU16 x => some x
  | _ => Option.none

def Args.optS32? : Args → Option (Option (BitVec 32))
  | .optS32 x => some x
  | _ => Option.none

def Args.callsign? : Args → Option CallsignIn
  | .callsign x => some x
  | _ => Option.none

def Args.nibbles? : Args → Option (UInt4 × UInt4)
  | .nibbles hi lo => some (hi, lo)
  | _ => Option.none

def Args.heartbeat? : Args → Option Heartbeat
  | .heartbeat x => some x
  | _ => Option.none

def Args.ownship? : Args → Option OwnshipReport
  | .ownship x => some x
  | _ => Option.none

def Args.traffic? : Args → Option TrafficReport
  | .traffic x => some x
  | _ => Option.none

def Args.message? : Args → Option Message
  | .message x => some x
  | _ => Option.none

def Args.none? : Args → Option Unit
  | .none => some ()
  | _ => Option.none

/-- The instruction an operation forms from its instance byte and its operand record; `none` when the record is not of the
type R82 gives the operation. Only FEED and REASM_RESET read `inst` (R80). -/
def formInstr (o : Operation) (inst : Byte) (a : Args) : Option Instr :=
  match o with
  | .crc16 => a.bytes?.map .crc16
  | .escape => a.bytes?.map .escape
  | .unescape => a.bytes?.map .unescape
  | .wrap => a.bytes?.map .wrap
  | .unwrap => a.bytes?.map .unwrap
  | .pack24 => a.u32?.map .pack24
  | .unpack24 => a.bytes3?.map .unpack24
  | .encLat => a.rational?.map .encLat
  | .encLon => a.rational?.map .encLon
  | .decLatLon => a.u24?.map .decLatLon
  | .encAlt => a.optRational?.map .encAlt
  | .decAlt => a.u12?.map .decAlt
  | .encGs => a.optU16?.map .encGs
  | .decGs => a.u12?.map .decGs
  | .encVs => a.optS32?.map .encVs
  | .decVs => a.u12?.map .decVs
  | .encTrk => a.rational?.map .encTrk
  | .decTrk => a.u8?.map .decTrk
  | .encCs => a.callsign?.map .encCs
  | .decCs => a.bytes8?.map .decCs
  | .packNib => a.nibbles?.map fun x => .packNib x.1 x.2
  | .unpackNib => a.u8?.map .unpackNib
  | .msgEncHb => a.heartbeat?.map .msgEncHb
  | .msgEncOwn => a.ownship?.map .msgEncOwn
  | .msgEncTraf => a.traffic?.map .msgEncTraf
  | .msgDec => a.bytes?.map .msgDec
  | .encodeFrame => a.message?.map .encodeFrame
  | .decodeFrame => a.bytes?.map .decodeFrame
  | .feed => a.bytes?.map (.feed inst)
  | .reasmReset => a.none?.map fun _ => .reasmReset inst

/-! ## The payload ID map (R96) -/

/-- The three defined message kinds (R96). -/
inductive PayloadKind where
  | heartbeat
  | ownship
  | traffic
  deriving DecidableEq, Repr

/-- The kind a payload's byte 0 selects, if R96 lists it. -/
def payloadKindOf (id : Byte) : Option PayloadKind :=
  if id = 0x00 then some .heartbeat
  else if id = 0x0A then some .ownship
  else if id = 0x14 then some .traffic
  else none

/-- The fixed payload length of a kind (R96). -/
def payloadNeed : PayloadKind → Nat
  | .heartbeat => 7
  | .ownship => 28
  | .traffic => 28

/-- The payload instruction of a kind. -/
def payloadInstr (k : PayloadKind) (p : Bytes) : Instr :=
  match k with
  | .heartbeat => .payloadHeartbeat p
  | .ownship => .payloadOwnship p
  | .traffic => .payloadTraffic p

/-! ## Decoding -/

/-- Why a request or a payload decodes to no instruction. -/
inductive DecodeError where
  /-- R82 lists no such op: the request is answered with IllegalCommand (R83). -/
  | unassignedOp (op : Byte)
  /-- The operand record is not of the type R82 gives `op`; no host can present such a request (R80, R84). -/
  | operandRecord (op : Byte)
  /-- The payload is empty, of an unknown kind, or too short (R236). -/
  | payload (e : ProtocolError)
  deriving DecidableEq, Repr

/-- Decode a request (R80, R82, R83). -/
def decodeRequest (r : Request) : Except DecodeError Instr :=
  match operationOf r.op with
  | none => .error (.unassignedOp r.op)
  | some o =>
    match formInstr o r.inst r.args with
    | none => .error (.operandRecord r.op)
    | some i => .ok i

/-- The kind of a payload, or the MessageError its first byte or its length gives: the checks of R236, in R236's order. -/
def classifyPayload (p : Bytes) : Except ProtocolError PayloadKind :=
  match p with
  | [] => .error .truncated
  | id :: _ =>
    match payloadKindOf id with
    | none => .error (.unknownKind id p)
    | some k => if p.length < payloadNeed k then .error .truncated else .ok k

/-- Decode a payload's bytes (R96, R236). -/
def decodePayload (p : Bytes) : Except DecodeError Instr :=
  match classifyPayload p with
  | .error e => .error (.payload e)
  | .ok k => .ok (payloadInstr k p)

/-- An encoding in one of the two encoding spaces. -/
inductive Encoded where
  | request (r : Request)
  | payload (p : Bytes)
  deriving DecidableEq, Repr

/-- Decode in either space. -/
def decode : Encoded → Except DecodeError Instr
  | .request r => decodeRequest r
  | .payload p => decodePayload p

/-! ## Encoding -/

/-- The encoding of an instruction, from R82's and R96's tables. The `inst` byte of an operation that ignores it is written
0x00 (as in 95_test_vectors.md section 3). -/
def encode (i : Instr) : Encoded :=
  match i with
  | .crc16 x => .request ⟨0x01, 0x00, .bytes x⟩
  | .escape x => .request ⟨0x02, 0x00, .bytes x⟩
  | .unescape x => .request ⟨0x03, 0x00, .bytes x⟩
  | .wrap x => .request ⟨0x04, 0x00, .bytes x⟩
  | .unwrap x => .request ⟨0x05, 0x00, .bytes x⟩
  | .pack24 x => .request ⟨0x10, 0x00, .u32 x⟩
  | .unpack24 x => .request ⟨0x11, 0x00, .bytes3 x⟩
  | .encLat x => .request ⟨0x12, 0x00, .rational x⟩
  | .encLon x => .request ⟨0x13, 0x00, .rational x⟩
  | .decLatLon x => .request ⟨0x14, 0x00, .u24 x⟩
  | .encAlt x => .request ⟨0x15, 0x00, .optRational x⟩
  | .decAlt x => .request ⟨0x16, 0x00, .u12 x⟩
  | .encGs x => .request ⟨0x17, 0x00, .optU16 x⟩
  | .decGs x => .request ⟨0x18, 0x00, .u12 x⟩
  | .encVs x => .request ⟨0x19, 0x00, .optS32 x⟩
  | .decVs x => .request ⟨0x1A, 0x00, .u12 x⟩
  | .encTrk x => .request ⟨0x1B, 0x00, .rational x⟩
  | .decTrk x => .request ⟨0x1C, 0x00, .u8 x⟩
  | .encCs x => .request ⟨0x1D, 0x00, .callsign x⟩
  | .decCs x => .request ⟨0x1E, 0x00, .bytes8 x⟩
  | .packNib hi lo => .request ⟨0x1F, 0x00, .nibbles hi lo⟩
  | .unpackNib x => .request ⟨0x20, 0x00, .u8 x⟩
  | .msgEncHb x => .request ⟨0x30, 0x00, .heartbeat x⟩
  | .msgEncOwn x => .request ⟨0x31, 0x00, .ownship x⟩
  | .msgEncTraf x => .request ⟨0x32, 0x00, .traffic x⟩
  | .msgDec x => .request ⟨0x38, 0x00, .bytes x⟩
  | .encodeFrame x => .request ⟨0x40, 0x00, .message x⟩
  | .decodeFrame x => .request ⟨0x41, 0x00, .bytes x⟩
  | .feed inst data => .request ⟨0x50, inst, .bytes data⟩
  | .reasmReset inst => .request ⟨0x51, inst, .none⟩
  | .payloadHeartbeat p => .payload p
  | .payloadOwnship p => .payload p
  | .payloadTraffic p => .payload p

/-! ## Table words

spec/opcode_table.json gives each row 8 bits: a request's op byte, or a payload's byte 0. Operands are not serialized (R99),
so "the bits above nbits are 0" is read as: `inst` 0 (bits 15:8 of the word) and an operand record of zeros. -/

def zeroHeartbeat : Heartbeat := ⟨0, 0, 0, 0⟩

def zeroPosition : Position := ⟨0, 0, some 0, 0⟩

def zeroVelocity : Velocity := ⟨some 0, some 0, 0⟩

def zeroOwnship : OwnshipReport := ⟨0, zeroPosition, zeroVelocity, 0, 0, 0, [], 0⟩

def zeroTraffic : TrafficReport := ⟨false, 0, 0, zeroPosition, zeroVelocity, 0, 0, 0, [], 0⟩

/-- The operand record of zeros of an operation. -/
def zeroArgs (o : Operation) : Args :=
  match o with
  | .crc16 => .bytes []
  | .escape => .bytes []
  | .unescape => .bytes []
  | .wrap => .bytes []
  | .unwrap => .bytes []
  | .pack24 => .u32 0
  | .unpack24 => .bytes3 #v[0, 0, 0]
  | .encLat => .rational 0
  | .encLon => .rational 0
  | .decLatLon => .u24 0
  | .encAlt => .optRational (some 0)
  | .decAlt => .u12 0
  | .encGs => .optU16 (some 0)
  | .decGs => .u12 0
  | .encVs => .optS32 (some 0)
  | .decVs => .u12 0
  | .encTrk => .rational 0
  | .decTrk => .u8 0
  | .encCs => .callsign []
  | .decCs => .bytes8 #v[0, 0, 0, 0, 0, 0, 0, 0]
  | .packNib => .nibbles 0 0
  | .unpackNib => .u8 0
  | .msgEncHb => .heartbeat zeroHeartbeat
  | .msgEncOwn => .ownship zeroOwnship
  | .msgEncTraf => .traffic zeroTraffic
  | .msgDec => .bytes []
  | .encodeFrame => .message (.hb zeroHeartbeat)
  | .decodeFrame => .bytes []
  | .feed => .bytes []
  | .reasmReset => .none

/-- The payload whose byte 0 is `id` and whose further bytes, up to the longest fixed length, are 0. -/
def zeroPayload (id : Byte) : Bytes := id :: List.replicate 27 0x00

/-- The request that presents a table word. A word whose low byte is a request opcode is that request. The table's payload
rows are no requests: a word whose low byte is only a payload ID is presented as the MSG_DEC request on a payload that
begins with it, which is how R236 reaches a payload kind. 0x14 is both DEC_LATLON and the Traffic Report's ID; as a request
it is DEC_LATLON (notes/assumptions/7.md). -/
def tableRequest (nbits w : Nat) : Request :=
  let v := w % 2 ^ nbits
  let op : Byte := BitVec.ofNat 8 v
  let inst : Byte := BitVec.ofNat 8 (v / 256)
  match operationOf op with
  | some o => ⟨op, inst, zeroArgs o⟩
  | none =>
    match payloadKindOf op with
    | some _ => ⟨0x38, inst, .bytes (zeroPayload op)⟩
    | none => ⟨op, inst, .none⟩

/-- The instruction a table word decodes to: in the request space where its low byte is a request opcode, else in the
payload space. -/
def decodeTableWord (nbits w : Nat) : Option Instr :=
  let op : Byte := BitVec.ofNat 8 (w % 2 ^ nbits)
  match operationOf op with
  | some _ => (decodeRequest (tableRequest nbits w)).toOption
  | none => (decodePayload (zeroPayload op)).toOption

end Sys2Proof
end

