-- ==== Sys2Proof/Machine/State.lean ====
section
/-!
DEFINITION. The machine's state (10_state.md R30), the reasons a step can stop, and the state after reset (R38, R340).

`cfg` and `bufs` are the CORE's whole state; R30's remaining item, the constant `CRC_TABLE`, is `crcTable` in Machine/Crc.lean.
`pending` and `responses` are the model's own fields for the host's side of the interface: the program the host issues (R32)
and what a run observes (R346). They are no state of the CORE, and no operation reads them (notes/assumptions/1.md, 2.md).
-/

namespace Sys2Proof.Machine

/-- What the host does next: issue a request (R80), or assert reset, which it does only between requests (R340, R347). -/
inductive HostMove where
  | request (r : Request)
  | reset
  deriving DecidableEq, Repr

/-- The state. -/
structure State where
  /-- `Config` (R34): fixed at build, no request reads it back or writes it. -/
  cfg : Config
  /-- `Buf[k]` (R35), k = 0, 1, …, `cfg.reasmInstances` − 1, in order. -/
  bufs : List Bytes
  /-- The host's moves not yet made, next first (R32). -/
  pending : List HostMove
  /-- The responses given so far, in request order (R346). -/
  responses : List Response
  deriving DecidableEq, Repr

/-- No request can fault, stick or hang (R346; 60_exceptions.md R306): there is no fault. Every error of the spec is a response
or a FEED item (R300). The type is closed and empty, so `Outcome.fault` answers nothing; nobody raises it. -/
inductive Fault where
  deriving DecidableEq, Repr

/-- Why a step can answer no next state. -/
inductive Refusal where
  /-- Raised by `exec`'s arm of an instruction that has no meaning yet (none: every arm has one). Safe. -/
  | notModelled (mnemonic : String)
  /-- Raised by `step` alone, when the operand record of the next request is not of the type R82 gives its `op`. Such a
  request cannot be presented: `args` IS the record R82 gives (R80), bounded by its types (R84). It is the treatment `refuse`
  of 93_implementation_defined.md ("the situation has no move in the model"). Safe: the machine stops where no host can
  bring it. -/
  | notPresentable (op : Byte)
  deriving DecidableEq, Repr

/-- The state after reset of hardware built with configuration `c`: every `Buf[k]` is `[]` (R38, R340), no request is pending
and no response has been given. -/
def State.resetWith (c : Config) : State where
  cfg := c
  bufs := List.replicate c.reasmInstances []
  pending := []
  responses := []

/-- The state after reset at the configuration of `Config.vectors` (notes/assumptions/3.md). -/
def State.reset : State := State.resetWith Config.vectors

/-- The request index (R32): it starts at 0 and goes up by 1 as each request completes, so it is the number of responses. -/
def State.requestIndex (s : State) : Nat := s.responses.length

end Sys2Proof.Machine
end

