-- ==== Sys2Proof/Machine/Ops.lean ====
section
/-!
DEFINITION. The named operations over the state: giving a response, reading and writing a reassembler buffer, the host's next
move, and reset. Every reading and writing of state goes through these.

The CORE has no trap entry and no trap return (60_exceptions.md R308, R309): its one way of taking an error is `State.raise`,
the response of R300, which saves nothing, changes no mode and goes nowhere.
-/

namespace Sys2Proof.Machine

/-- Give the response of the request being executed (R81). -/
def State.respond (s : State) (r : Response) : State :=
  { s with responses := s.responses ++ [r] }

/-- `raise E(info)` at status level (R16, R300): the response is the error; no state of the CORE is written (R305). -/
def State.raise (s : State) (e : ProtocolError) : State := s.respond (errResponse e)

/-- Answer an operation's outcome: its result, or the error it raised. -/
def State.answer (s : State) (x : Except ProtocolError Result) : State :=
  s.respond (responseOf x)

/-- Complete with a result. -/
def State.complete (s : State) (r : Result) : State := s.respond (okResponse r)

/-- `inst` names an instance of this hardware: `inst` < REASM_INSTANCES (R83, R270). -/
def State.hasInstance (s : State) (inst : Byte) : Bool :=
  decide (inst.toNat < s.cfg.reasmInstances)

/-- Read `Buf[k]` (R35). -/
def State.buf (s : State) (k : Nat) : Bytes := s.bufs.getD k []

/-- `Buf[k] <- b` (R17). -/
def State.setBuf (s : State) (k : Nat) (b : Bytes) : State :=
  { s with bufs := s.bufs.set k b }

/-- The CORE's reset (R340): every `Buf[k]` becomes `[]`; `Config` is untouched. -/
def State.applyReset (s : State) : State :=
  { s with bufs := List.replicate s.cfg.reasmInstances [] }

/-- The state in which the host's next move has been taken off its program. -/
def State.takeMove (s : State) : State := { s with pending := s.pending.drop 1 }

/-- The state in which `m` is the host's next move. -/
def State.putMove (s : State) (m : HostMove) : State := { s with pending := m :: s.pending }

end Sys2Proof.Machine
end

