-- ==== Sys2Proof/Machine/Fields.lean ====
section
/-!
DEFINITION. The field transforms (42_field_transforms.md R172 to R188). Each computes exactly and narrows once, at the end;
`BitVec.ofInt n r` is `r mod 2^n` (R12).
-/

namespace Sys2Proof.Machine

/-! ## 24-bit pack and unpack -/

/-- `PACK24(v)` (R172): never truncates. -/
def pack24 (v : BitVec 32) : Except ProtocolError Bytes :=
  if 0xFFFFFF < v.toNat then .error .invalidAddress else .ok (be24 (v.setWidth 24))

/-- `UNPACK24(b)` (R173). -/
def unpack24 (b : Vector Byte 3) : UInt24 := rdBe24 b.toList 0

/-! ## Latitude and longitude -/

/-- `ENC_LAT(deg)` (R174). -/
def encLat (mode : RoundMode) (deg : Q) : UInt24 :=
  BitVec.ofInt 24 (roundQ mode (clampQ deg (-90) 90 * 2 ^ 23 / 180))

/-- `ENC_LON(deg)` (R175). -/
def encLon (mode : RoundMode) (deg : Q) : UInt24 :=
  BitVec.ofInt 24 (roundQ mode (clampQ deg (-180) 180 * 2 ^ 23 / 180))

/-- `DEC_LATLON(raw)` (R176). -/
def decLatLon (raw : UInt24) : Q := (raw.toInt : Q) * 180 / 2 ^ 23

/-! ## Altitude -/

/-- `ENC_ALT(ft)` (R177): round, then clamp. -/
def encAlt (mode : RoundMode) (ft : Option Q) : UInt12 :=
  match ft with
  | none => 0xFFF
  | some x => BitVec.ofInt 12 (clampInt (roundQ mode ((x + 1000) / 25)) 0 0xFFE)

/-- `DEC_ALT(raw)` (R178). -/
def decAlt (raw : UInt12) : Option Int :=
  if raw = 0xFFF then none else some ((raw.toNat : Int) * 25 - 1000)

/-! ## Ground speed -/

/-- `ENC_GS(kt)` (R179). -/
def encGs (kt : Option (BitVec 16)) : UInt12 :=
  match kt with
  | none => 0xFFF
  | some v => BitVec.ofNat 12 (min v.toNat 0xFFE)

/-- `DEC_GS(raw)` (R180). -/
def decGs (raw : UInt12) : Option UInt12 := if raw = 0xFFF then none else some raw

/-! ## Vertical speed -/

/-- `ENC_VS(fpm)` (R181): saturate, then round to units of 64. -/
def encVs (mode : RoundMode) (fpm : Option (BitVec 32)) : UInt12 :=
  match fpm with
  | none => 0x800
  | some v => BitVec.ofInt 12 (roundQ mode ((clampInt v.toInt (-32576) 32576 : Int) / (64 : Q)))

/-- `DEC_VS(raw)` (R182). -/
def decVs (raw : UInt12) : Option Int := if raw = 0x800 then none else some (raw.toInt * 64)

/-! ## Track -/

/-- `ENC_TRK(deg)` (R183): floor modulo 256. -/
def encTrk (mode : RoundMode) (deg : Q) : Byte := BitVec.ofInt 8 (roundQ mode (deg * 256 / 360))

/-- `DEC_TRK(raw)` (R184). -/
def decTrk (raw : Byte) : Q := (raw.toNat : Q) * 360 / 256

/-! ## Callsign -/

/-- `ENC_CS(cs)` (R185). -/
def encCs (cs : CallsignIn) : Bytes :=
  let t := (cs.take 8).map fun c => c.zeroExtend 8
  t ++ List.replicate (8 - t.length) 0x20

/-- A received callsign byte: an ASCII character, or the replacement marker (R186). -/
def callChar (x : Byte) : CallChar :=
  if x.toNat ≤ 0x7F then .ascii (x.extractLsb' 0 7) else .replacement

/-- Strip trailing spaces only (R186). -/
def stripTrailing (s : CallsignOut) : CallsignOut :=
  s.rdropWhile fun c => c == .ascii 0x20

/-- `DEC_CS(b)` (R186), on the bytes of the field. -/
def decCs (b : Bytes) : CallsignOut := stripTrailing (b.map callChar)

/-! ## Nibble pairs -/

/-- `PACK_NIB(hi, lo)` = `{hi:4, lo:4}` (R187). -/
def packNib (hi lo : UInt4) : Byte := hi ++ lo

/-- `UNPACK_NIB(b)` = `(b[7:4], b[3:0])` (R188). -/
def unpackNib (b : Byte) : UInt4 × UInt4 := (b.extractLsb' 4 4, b.extractLsb' 0 4)

/-! ## Meanings -/

/-- PACK24 (R172). -/
def execPack24 (v : BitVec 32) (s : State) : Host.Outcome State Fault Refusal :=
  .next (s.answer ((pack24 v).map .bytes))

/-- UNPACK24 (R173). -/
def execUnpack24 (b : Vector Byte 3) (s : State) : Host.Outcome State Fault Refusal :=
  .next (s.complete (.u24 (unpack24 b)))

/-- ENC_LAT (R174). -/
def execEncLat (deg : Q) (s : State) : Host.Outcome State Fault Refusal :=
  .next (s.complete (.u24 (encLat s.cfg.roundMode deg)))

/-- ENC_LON (R175). -/
def execEncLon (deg : Q) (s : State) : Host.Outcome State Fault Refusal :=
  .next (s.complete (.u24 (encLon s.cfg.roundMode deg)))

/-- DEC_LATLON (R176). -/
def execDecLatLon (raw : UInt24) (s : State) : Host.Outcome State Fault Refusal :=
  .next (s.complete (.rational (decLatLon raw)))

/-- ENC_ALT (R177). -/
def execEncAlt (ft : Option Q) (s : State) : Host.Outcome State Fault Refusal :=
  .next (s.complete (.u12 (encAlt s.cfg.roundMode ft)))

/-- DEC_ALT (R178). -/
def execDecAlt (raw : UInt12) (s : State) : Host.Outcome State Fault Refusal :=
  .next (s.complete (.optInt (decAlt raw)))

/-- ENC_GS (R179). -/
def execEncGs (kt : Option (BitVec 16)) (s : State) : Host.Outcome State Fault Refusal :=
  .next (s.complete (.u12 (encGs kt)))

/-- DEC_GS (R180). -/
def execDecGs (raw : UInt12) (s : State) : Host.Outcome State Fault Refusal :=
  .next (s.complete (.optU12 (decGs raw)))

/-- ENC_VS (R181). -/
def execEncVs (fpm : Option (BitVec 32)) (s : State) : Host.Outcome State Fault Refusal :=
  .next (s.complete (.u12 (encVs s.cfg.roundMode fpm)))

/-- DEC_VS (R182). -/
def execDecVs (raw : UInt12) (s : State) : Host.Outcome State Fault Refusal :=
  .next (s.complete (.optInt (decVs raw)))

/-- ENC_TRK (R183). -/
def execEncTrk (deg : Q) (s : State) : Host.Outcome State Fault Refusal :=
  .next (s.complete (.byte (encTrk s.cfg.roundMode deg)))

/-- DEC_TRK (R184). -/
def execDecTrk (raw : Byte) (s : State) : Host.Outcome State Fault Refusal :=
  .next (s.complete (.rational (decTrk raw)))

/-- ENC_CS (R185). -/
def execEncCs (cs : CallsignIn) (s : State) : Host.Outcome State Fault Refusal :=
  .next (s.complete (.bytes (encCs cs)))

/-- DEC_CS (R186). -/
def execDecCs (b : Vector Byte 8) (s : State) : Host.Outcome State Fault Refusal :=
  .next (s.complete (.callsign (decCs b.toList)))

/-- PACK_NIB (R187). -/
def execPackNib (hi lo : UInt4) (s : State) : Host.Outcome State Fault Refusal :=
  .next (s.complete (.byte (packNib hi lo)))

/-- UNPACK_NIB (R188). -/
def execUnpackNib (b : Byte) (s : State) : Host.Outcome State Fault Refusal :=
  .next (s.complete (.nibbles (unpackNib b).1 (unpackNib b).2))

end Sys2Proof.Machine
end

