-- ==== Sys2Proof/Machine/Framing.lean ====
section
/-!
DEFINITION. The byte stuffer and the framer (41_framing.md).
-/

namespace Sys2Proof.Machine

/-- `FLAG`, the delimiter (R140). -/
abbrev flagByte : Byte := 0x7E

/-- `ESC`, the escape byte (R140). -/
abbrev escByte : Byte := 0x7D

/-- `ESC_XOR` (R140). -/
abbrev escXor : Byte := 0x20

/-- `ESCAPE(data)` (R141). -/
def escape (data : Bytes) : Bytes :=
  match data with
  | [] => []
  | b :: rest =>
    if b = flagByte ∨ b = escByte then escByte :: (b ^^^ escXor) :: escape rest
    else b :: escape rest

/-- `UNESCAPE(data)` (R142). -/
def unescape (data : Bytes) : Except ProtocolError Bytes :=
  match data with
  | [] => .ok []
  | [b] => if b = escByte then .error .truncatedEscape else .ok [b]
  | b :: x :: rest =>
    if b = escByte then (unescape rest).map fun out => (x ^^^ escXor) :: out
    else (unescape (x :: rest)).map fun out => b :: out

/-- `WRAP(payload)` (R143). -/
def wrap (form : CrcForm) (payload : Bytes) : Bytes :=
  [flagByte] ++ escape (payload ++ crcBytes form payload) ++ [flagByte]

/-- Check 1 of R144: at least 4 bytes, delimited at both ends. -/
def isFramed (wire : Bytes) : Bool :=
  decide (4 ≤ wire.length) && byteAt wire 0 == flagByte && byteAt wire (wire.length - 1) == flagByte

/-- `UNWRAP(wire)` (R144): the four checks in R145's order. -/
def unwrap (form : CrcForm) (wire : Bytes) : Except ProtocolError Bytes :=
  if isFramed wire then
    match unescape (slice wire 1 (wire.length - 1)) with
    | .error e => .error e
    | .ok u =>
      if u.length ≤ 2 then .error .emptyPayload
      else
        let payload := slice u 0 (u.length - 2)
        let received := rdLe16 u (u.length - 2)
        if crc16 form payload ≠ received then .error .crcMismatch
        else .ok payload
  else .error .notAFrame

/-- ESCAPE (R141). -/
def execEscape (data : Bytes) (s : State) : Host.Outcome State Fault Refusal :=
  .next (s.complete (.bytes (escape data)))

/-- UNESCAPE (R142). -/
def execUnescape (data : Bytes) (s : State) : Host.Outcome State Fault Refusal :=
  .next (s.answer ((unescape data).map .bytes))

/-- WRAP (R143). -/
def execWrap (payload : Bytes) (s : State) : Host.Outcome State Fault Refusal :=
  .next (s.complete (.bytes (wrap s.cfg.crcForm payload)))

/-- UNWRAP (R144). -/
def execUnwrap (wire : Bytes) (s : State) : Host.Outcome State Fault Refusal :=
  .next (s.answer ((unwrap s.cfg.crcForm wire).map .bytes))

end Sys2Proof.Machine
end

