-- ==== Sys2Proof/Machine/Messages.lean ====
section
/-!
DEFINITION. The message codec (43_message_codec.md): the payload encoders and decoders over the one layout of 30_encoding.md R92
and R93, the whole-frame operations, and the three payload kinds MSG_DEC selects.
-/

namespace Sys2Proof.Machine

/-! ## Encoders -/

/-- `BODY_ENC` (R231): payload bytes 5..27 of the Ownship and Traffic Reports. -/
def bodyEnc (mode : RoundMode) (pos : Position) (vel : Velocity) (nic nacp : UInt4) (emit : Byte) (cs : CallsignIn)
    (emerg : UInt4) : Bytes :=
  be24 (encLat mode pos.latitudeDeg)
    ++ be24 (encLon mode pos.longitudeDeg)
    ++ be16 (encAlt mode pos.altitudeFt ++ pos.miscIndicators)
    ++ [packNib nic nacp]
    ++ be24 (encGs vel.groundSpeedKt ++ encVs mode vel.verticalSpeedFpm)
    ++ [encTrk mode vel.trackDeg]
    ++ [emit]
    ++ encCs cs
    ++ [packNib emerg 0]

/-- The timestamp MSG_ENC_HB writes: clamped to 0..86399, 17 bits (R233). -/
def heartbeatTimestamp (t : BitVec 32) : UInt17 := BitVec.ofNat 17 (min t.toNat 86399)

/-- MSG_ENC_HB's payload (R233, R93). -/
def msgEncHb (m : Heartbeat) : Bytes :=
  let ts := heartbeatTimestamp m.timestampSeconds
  [0x00, m.status1, ts.extractLsb' 16 1 ++ m.status2.extractLsb' 0 7]
    ++ le16 (ts.extractLsb' 0 16)
    ++ be16 m.messageCount

/-- The check that comes before any field of an Ownship or Traffic Report is encoded (R234, R235). -/
def addressTooLarge (a : BitVec 32) : Bool := decide (0xFFFFFF < a.toNat)

/-- MSG_ENC_OWN's payload (R234, R92); byte 1 is 0x00. -/
def msgEncOwn (mode : RoundMode) (m : OwnshipReport) : Except ProtocolError Bytes :=
  if addressTooLarge m.participantAddress then .error .invalidAddress
  else .ok ([0x0A, 0x00]
    ++ be24 (m.participantAddress.setWidth 24)
    ++ bodyEnc mode m.position m.velocity m.navIntegrity m.navAccuracy m.emitterCategory m.callsign m.emergencyCode)

/-- Byte 1 of a Traffic Report: `{0:3, alert:1, 0:1, address_type:3}` (R235, R95). -/
def trafficStatus (alert : Bool) (addressType : UInt3) : Byte :=
  0#3 ++ BitVec.ofBool alert ++ 0#1 ++ addressType

/-- MSG_ENC_TRAF's payload (R235, R92). -/
def msgEncTraf (mode : RoundMode) (m : TrafficReport) : Except ProtocolError Bytes :=
  if addressTooLarge m.participantAddress then .error .invalidAddress
  else .ok ([0x14, trafficStatus m.trafficAlert m.addressType]
    ++ be24 (m.participantAddress.setWidth 24)
    ++ bodyEnc mode m.position m.velocity m.navIntegrity m.navAccuracy m.emitterCategory m.callsign m.emergencyCode)

/-- The payload of a message of any kind. -/
def msgEnc (mode : RoundMode) (m : Message) : Except ProtocolError Bytes :=
  match m with
  | .hb h => .ok (msgEncHb h)
  | .own o => msgEncOwn mode o
  | .traf t => msgEncTraf mode t

/-! ## Decoders -/

/-- What `BODY_DEC` returns (R232). -/
structure DBody where
  position : DPosition
  velocity : DVelocity
  navIntegrity : UInt4
  navAccuracy : UInt4
  emitterCategory : Byte
  callsign : CallsignOut
  emergencyCode : UInt4
  deriving DecidableEq, Repr

/-- `BODY_DEC` (R232), for a payload of 28 bytes or more; the spare nibble of byte 27 is ignored. -/
def bodyDec (p : Bytes) : DBody :=
  let am := rdBe16 p 11
  let s := rdBe24 p 14
  { position :=
      { latitudeDeg := decLatLon (rdBe24 p 5)
        longitudeDeg := decLatLon (rdBe24 p 8)
        altitudeFt := decAlt (am.extractLsb' 4 12)
        miscIndicators := am.extractLsb' 0 4 }
    velocity :=
      { groundSpeedKt := decGs (s.extractLsb' 12 12)
        verticalSpeedFpm := decVs (s.extractLsb' 0 12)
        trackDeg := decTrk (byteAt p 17) }
    navIntegrity := (unpackNib (byteAt p 13)).1
    navAccuracy := (unpackNib (byteAt p 13)).2
    emitterCategory := byteAt p 18
    callsign := decCs (slice p 19 27)
    emergencyCode := (byteAt p 27).extractLsb' 4 4 }

/-- `DEC_HB` (R237), for a payload of 7 bytes or more. -/
def decHb (p : Bytes) : DecodedMessage :=
  .hb
    { status1 := byteAt p 1
      status2 := 0#1 ++ (byteAt p 2).extractLsb' 0 7
      timestampSeconds := (byteAt p 2).extractLsb' 7 1 ++ rdLe16 p 3
      messageCount := rdBe16 p 5 }

/-- `DEC_OWN` (R238), for a payload of 28 bytes or more; byte 1 is ignored. -/
def decOwn (p : Bytes) : DecodedMessage :=
  let b := bodyDec p
  .own
    { participantAddress := rdBe24 p 2
      position := b.position
      velocity := b.velocity
      navIntegrity := b.navIntegrity
      navAccuracy := b.navAccuracy
      emitterCategory := b.emitterCategory
      callsign := b.callsign
      emergencyCode := b.emergencyCode }

/-- `DEC_TRAF` (R239), for a payload of 28 bytes or more; bits 7:5 and 3 of byte 1 are ignored. -/
def decTraf (p : Bytes) : DecodedMessage :=
  let b := bodyDec p
  .traf
    { trafficAlert := (byteAt p 1).getLsbD 4
      addressType := (byteAt p 1).extractLsb' 0 3
      participantAddress := rdBe24 p 2
      position := b.position
      velocity := b.velocity
      navIntegrity := b.navIntegrity
      navAccuracy := b.navAccuracy
      emitterCategory := b.emitterCategory
      callsign := b.callsign
      emergencyCode := b.emergencyCode }

/-- The decoder R236 selects for a kind. -/
def decodeKind (k : PayloadKind) (p : Bytes) : DecodedMessage :=
  match k with
  | .heartbeat => decHb p
  | .ownship => decOwn p
  | .traffic => decTraf p

/-- `MSG_DEC(p)` (R236): the checks of `classifyPayload`, then the kind's decoder. Bytes beyond the fixed length are
ignored (R241). -/
def msgDec (p : Bytes) : Except ProtocolError DecodedMessage :=
  match classifyPayload p with
  | .error e => .error e
  | .ok k => .ok (decodeKind k p)

/-- A payload of a known kind: Truncated when it is shorter than the kind's fixed length, else its decoding (R236, R241). -/
def decodePayloadAs (k : PayloadKind) (p : Bytes) : Except ProtocolError DecodedMessage :=
  if p.length < payloadNeed k then .error .truncated else .ok (decodeKind k p)

/-! ## Whole frames -/

/-- `ENCODE_FRAME(m)` (R242): the kind's encoder, then WRAP. -/
def encodeFrame (cfg : Config) (m : Message) : Except ProtocolError Bytes :=
  match msgEnc cfg.roundMode m with
  | .error e => .error e
  | .ok p => .ok (wrap cfg.crcForm p)

/-- `DECODE_FRAME(w)` (R243): UNWRAP, then MSG_DEC. -/
def decodeFrame (form : CrcForm) (w : Bytes) : Except ProtocolError DecodedMessage :=
  match unwrap form w with
  | .error e => .error e
  | .ok p => msgDec p

/-! ## Meanings -/

/-- MSG_ENC_HB (R233). -/
def execMsgEncHb (m : Heartbeat) (s : State) : Host.Outcome State Fault Refusal :=
  .next (s.complete (.bytes (msgEncHb m)))

/-- MSG_ENC_OWN (R234). -/
def execMsgEncOwn (m : OwnshipReport) (s : State) : Host.Outcome State Fault Refusal :=
  .next (s.answer ((msgEncOwn s.cfg.roundMode m).map .bytes))

/-- MSG_ENC_TRAF (R235). -/
def execMsgEncTraf (m : TrafficReport) (s : State) : Host.Outcome State Fault Refusal :=
  .next (s.answer ((msgEncTraf s.cfg.roundMode m).map .bytes))

/-- MSG_DEC (R236). -/
def execMsgDec (payload : Bytes) (s : State) : Host.Outcome State Fault Refusal :=
  .next (s.answer ((msgDec payload).map .message))

/-- ENCODE_FRAME (R242). -/
def execEncodeFrame (m : Message) (s : State) : Host.Outcome State Fault Refusal :=
  .next (s.answer ((encodeFrame s.cfg m).map .bytes))

/-- DECODE_FRAME (R243). -/
def execDecodeFrame (wire : Bytes) (s : State) : Host.Outcome State Fault Refusal :=
  .next (s.answer ((decodeFrame s.cfg.crcForm wire).map .message))

/-- A Heartbeat payload (opcode-table row PAYLOAD_HEARTBEAT, R237): the request that carried it answers DEC_HB's message, or
Truncated when it is shorter than 7 bytes. -/
def execPayloadHeartbeat (p : Bytes) (s : State) : Host.Outcome State Fault Refusal :=
  .next (s.answer ((decodePayloadAs .heartbeat p).map .message))

/-- An Ownship Report payload (opcode-table row PAYLOAD_OWNSHIP, R238). -/
def execPayloadOwnship (p : Bytes) (s : State) : Host.Outcome State Fault Refusal :=
  .next (s.answer ((decodePayloadAs .ownship p).map .message))

/-- A Traffic Report payload (opcode-table row PAYLOAD_TRAFFIC, R239). -/
def execPayloadTraffic (p : Bytes) (s : State) : Host.Outcome State Fault Refusal :=
  .next (s.answer ((decodePayloadAs .traffic p).map .message))

end Sys2Proof.Machine
end

