-- ==== Sys2Proof/Machine/Reassembler.lean ====
section
/-!
DEFINITION. The frame reassembler (44_reassembler.md): FEED and REASM_RESET.
-/

namespace Sys2Proof.Machine

/-- What the span loop of R271 leaves: the buffer and the items so far. -/
structure Scan where
  buf : Bytes
  out : List Item
  deriving DecidableEq, Repr

/-- The span loop of R271. Each pass that goes on removes at least one byte from `buf` (R344), so a fuel of one more than the
buffer's length is never used up (notes/assumptions/10.md). -/
def spanLoop (form : CrcForm) (fuel : Nat) (buf : Bytes) (out : List Item) : Scan :=
  match fuel with
  | 0 => ⟨buf, out⟩
  | n + 1 =>
    match find flagByte buf 0 with
    | none => ⟨[], out⟩
    | some i =>
      let opened := buf.drop i
      match find flagByte opened 1 with
      | none => ⟨opened, out⟩
      | some j =>
        let span := slice opened 0 (j + 1)
        let rest := opened.drop j
        if j = 1 then spanLoop form n rest out
        else spanLoop form n rest (out ++ [itemOf (decodeFrame form span)])

/-- The span loop on a whole buffer. -/
def scanSpans (form : CrcForm) (buf : Bytes) : Scan := spanLoop form (buf.length + 1) buf []

/-- The overflow check of R275, once, on the buffer the loop left. -/
def checkOverflow (maxBytes : Nat) (x : Scan) : Scan :=
  if maxBytes < x.buf.length then ⟨[], x.out ++ [.err .bufferOverflow]⟩ else x

/-- `FEED` on a buffer: append the chunk, extract every complete span, check for overflow (R271). -/
def feedBuffer (cfg : Config) (buf chunk : Bytes) : Scan :=
  checkOverflow cfg.reasmMaxBytes (scanSpans cfg.crcForm (buf ++ chunk))

/-- FEED (R271); an instance out of range is IllegalCommand and no state is read or written (R270, R303). -/
def execFeed (inst : Byte) (data : Bytes) (s : State) : Host.Outcome State Fault Refusal :=
  if s.hasInstance inst then
    let x := feedBuffer s.cfg (s.buf inst.toNat) data
    .next ((s.setBuf inst.toNat x.buf).complete (.items x.out))
  else .next (s.raise .illegalCommand)

/-- REASM_RESET (R277); an instance out of range is IllegalCommand (R270, R303). -/
def execReasmReset (inst : Byte) (s : State) : Host.Outcome State Fault Refusal :=
  if s.hasInstance inst then .next ((s.setBuf inst.toNat []).complete .unit)
  else .next (s.raise .illegalCommand)

end Sys2Proof.Machine
end

