-- ==== Sys2Proof/Machine/Dispatch.lean ====
section
/-!
DEFINITION. One arm per constructor of `Instr`, each one call of that instruction's meaning.
-/

namespace Sys2Proof.Machine

/-- What an instruction does (30_encoding.md R82; the payload rows of R96). -/
def exec (i : Instr) (s : State) : Host.Outcome State Fault Refusal :=
  match i with
  | .crc16 data => Sys2Proof.Machine.execCrc16 data s
  | .escape data => Sys2Proof.Machine.execEscape data s
  | .unescape data => Sys2Proof.Machine.execUnescape data s
  | .wrap payload => Sys2Proof.Machine.execWrap payload s
  | .unwrap wire => Sys2Proof.Machine.execUnwrap wire s
  | .pack24 v => Sys2Proof.Machine.execPack24 v s
  | .unpack24 b => Sys2Proof.Machine.execUnpack24 b s
  | .encLat deg => Sys2Proof.Machine.execEncLat deg s
  | .encLon deg => Sys2Proof.Machine.execEncLon deg s
  | .decLatLon raw => Sys2Proof.Machine.execDecLatLon raw s
  | .encAlt ft => Sys2Proof.Machine.execEncAlt ft s
  | .decAlt raw => Sys2Proof.Machine.execDecAlt raw s
  | .encGs kt => Sys2Proof.Machine.execEncGs kt s
  | .decGs raw => Sys2Proof.Machine.execDecGs raw s
  | .encVs fpm => Sys2Proof.Machine.execEncVs fpm s
  | .decVs raw => Sys2Proof.Machine.execDecVs raw s
  | .encTrk deg => Sys2Proof.Machine.execEncTrk deg s
  | .decTrk raw => Sys2Proof.Machine.execDecTrk raw s
  | .encCs cs => Sys2Proof.Machine.execEncCs cs s
  | .decCs b => Sys2Proof.Machine.execDecCs b s
  | .packNib hi lo => Sys2Proof.Machine.execPackNib hi lo s
  | .unpackNib b => Sys2Proof.Machine.execUnpackNib b s
  | .msgEncHb m => Sys2Proof.Machine.execMsgEncHb m s
  | .msgEncOwn m => Sys2Proof.Machine.execMsgEncOwn m s
  | .msgEncTraf m => Sys2Proof.Machine.execMsgEncTraf m s
  | .msgDec payload => Sys2Proof.Machine.execMsgDec payload s
  | .encodeFrame m => Sys2Proof.Machine.execEncodeFrame m s
  | .decodeFrame wire => Sys2Proof.Machine.execDecodeFrame wire s
  | .feed inst data => Sys2Proof.Machine.execFeed inst data s
  | .reasmReset inst => Sys2Proof.Machine.execReasmReset inst s
  | .payloadHeartbeat p => Sys2Proof.Machine.execPayloadHeartbeat p s
  | .payloadOwnship p => Sys2Proof.Machine.execPayloadOwnship p s
  | .payloadTraffic p => Sys2Proof.Machine.execPayloadTraffic p s

end Sys2Proof.Machine
end

