-- ==== Sys2Proof/Machine/Fetch.lean ====
section
/-!
DEFINITION. The host's side of a step: the CORE fetches nothing (10_state.md R32); the host makes one move, and the CORE answers it
as one indivisible step (70_reset_and_hazards.md R345).
-/

namespace Sys2Proof.Machine

/-- Take one request: an assigned op runs its instruction, an unassigned op is answered IllegalCommand (R83, R303), and an
operand record that is not of its op's type is no request (R80, R84). -/
def takeRequest (r : Request) (s : State) : Host.Outcome State Fault Refusal :=
  match decodeRequest r with
  | .ok i => exec i s
  | .error (.unassignedOp _) => .next (s.raise .illegalCommand)
  | .error (.operandRecord op) => .refused (.notPresentable op)
  | .error (.payload e) => .next (s.raise e)

/-- Make one move of the host. -/
def takeHostMove (m : HostMove) (s : State) : Host.Outcome State Fault Refusal :=
  match m with
  | .request r => takeRequest r s
  | .reset => .next s.applyReset

/-- One step: the host's next move, or nothing when there is none, the CORE being idle and holding its state (R316, R346). -/
def takeStep (s : State) : Host.Outcome State Fault Refusal :=
  match s.pending with
  | [] => .next s
  | m :: _ => takeHostMove m s.takeMove

/-- `s` with the request of a table word as the host's next move. -/
def placeTableWord (s : State) (nbits w : Nat) : State := s.putMove (.request (tableRequest nbits w))

end Sys2Proof.Machine
end

