-- ==== Sys2Proof/Machine/Step.lean ====
section
/-!
DEFINITION. One step of the machine, and the placing of a table word as its next request.
-/

namespace Sys2Proof.Machine

/-- One step (70_reset_and_hazards.md R345): the host's next move, made whole. -/
def step (s : State) : Host.Outcome State Fault Refusal := takeStep s

/-- `s` with the instruction of a word of spec/opcode_table.json as the very next request (notes/assumptions/7.md). -/
def State.withFetchWord (s : State) (nbits w : Nat) : State := placeTableWord s nbits w

end Sys2Proof.Machine
end

