-- ==== Sys2Proof/Safety.lean ====
section
/-!
DEFINITION. What counts as a safe state, and the words the claims are written in: the buffer invariant of 44_reassembler.md R278,
which requests a host can present, what it is to answer a request, the nearest integer, and the in-range messages of the
round-trip law.
-/

namespace Sys2Proof.Claims

open Sys2Proof.Machine

/-! ## Safe states -/

/-- A retained buffer is empty, or begins with the delimiter and holds no other one; and it has at most `maxBytes` bytes
(R278 item 1, R35). -/
abbrev BufferOk (maxBytes : Nat) (b : Bytes) : Prop :=
  (b = [] ∨ (b.head? = some 0x7E ∧ 0x7E ∉ b.tail)) ∧ b.length ≤ maxBytes

/-- The machine's invariant: a configuration within R9's bounds, one buffer per instance (R36), each as R278 item 1 says. -/
abbrev Inv (s : State) : Prop :=
  s.cfg.Legal ∧ s.bufs.length = s.cfg.reasmInstances ∧ ∀ b ∈ s.bufs, BufferOk s.cfg.reasmMaxBytes b

/-- A request whose operand record has the type R82 gives its `op` (R80); a request with an unassigned `op` may carry any
record, none is examined (R303). -/
def presentable (r : Request) : Bool :=
  match operationOf r.op with
  | none => true
  | some o => (formInstr o r.inst r.args).isSome

/-- The operations that touch no buffer: all but FEED and REASM_RESET (R68). -/
def touchesNoBuffer (i : Instr) : Bool :=
  match i with
  | .crc16 _ => true
  | .escape _ => true
  | .unescape _ => true
  | .wrap _ => true
  | .unwrap _ => true
  | .pack24 _ => true
  | .unpack24 _ => true
  | .encLat _ => true
  | .encLon _ => true
  | .decLatLon _ => true
  | .encAlt _ => true
  | .decAlt _ => true
  | .encGs _ => true
  | .decGs _ => true
  | .encVs _ => true
  | .decVs _ => true
  | .encTrk _ => true
  | .decTrk _ => true
  | .encCs _ => true
  | .decCs _ => true
  | .packNib _ _ => true
  | .unpackNib _ => true
  | .msgEncHb _ => true
  | .msgEncOwn _ => true
  | .msgEncTraf _ => true
  | .msgDec _ => true
  | .encodeFrame _ => true
  | .decodeFrame _ => true
  | .feed _ _ => false
  | .reasmReset _ => false
  | .payloadHeartbeat _ => true
  | .payloadOwnship _ => true
  | .payloadTraffic _ => true

/-! ## Answering -/

/-- In state `s`, instruction `i` completes with response `{status, result}` and changes nothing else: not the
configuration, not a buffer, not the host's program. -/
def Answers (s : State) (i : Instr) (status : Byte) (result : Result) : Prop :=
  exec i s = .next { s with responses := s.responses ++ [⟨status, result⟩] }

/-- The ops R82 lists. -/
def assignedOps : List Byte :=
  [0x01, 0x02, 0x03, 0x04, 0x05, 0x10, 0x11, 0x12, 0x13, 0x14, 0x15, 0x16, 0x17, 0x18, 0x19, 0x1A, 0x1B, 0x1C, 0x1D,
   0x1E, 0x1F, 0x20, 0x30, 0x31, 0x32, 0x38, 0x40, 0x41, 0x50, 0x51]

/-- The FEED items among some responses. -/
def itemsIn (l : List Response) : List Item :=
  l.flatMap fun r => match r.result with
    | .items x => x
    | _ => []

/-- The FEED requests that bring `chunks` to instance `k`, one request a chunk. -/
def feeds (k : Byte) (chunks : List Bytes) : List HostMove :=
  chunks.map fun c => .request ⟨0x50, k, .bytes c⟩

/-! ## Bytes -/

/-- A byte ESCAPE must escape (R140). -/
abbrev Special (b : Byte) : Prop := b = 0x7E ∨ b = 0x7D

/-- Every escape byte is followed by 0x5D or 0x5E (R141, R147). -/
abbrev EscapesPaired (s : Bytes) : Prop :=
  ∀ i : Nat, s[i]? = some (0x7D : Byte) → s[i + 1]? = some 0x5D ∨ s[i + 1]? = some 0x5E

/-- `s` with bit `j` of byte `k` inverted. -/
def flipBit (s : Bytes) (k j : Nat) : Bytes := s.set k (s.getD k 0 ^^^ (1 <<< j))

/-! ## Numbers -/

/-- `r` is the integer R170 calls ROUND(q): no integer is nearer, and a tie goes to the even one, or away from 0. -/
def IsRound (mode : RoundMode) (q : Q) (r : Int) : Prop :=
  q - r ≤ 1 / 2 ∧ r - q ≤ 1 / 2 ∧
    ((q - r = 1 / 2 ∨ r - q = 1 / 2) →
      match mode with
      | .halfEven => r % 2 = 0
      | .halfAway => (0 < q → q < r) ∧ (q < 0 → r < q))

/-- `a` and `b` differ by at most `e`. -/
def Within (e a b : Q) : Prop := a - b ≤ e ∧ b - a ≤ e

/-! ## The round-trip law (R244) -/

/-- R244's conditions on the fields an Ownship and a Traffic Report share. -/
def reportInRange (address : BitVec 32) (pos : Position) (vel : Velocity) (cs : CallsignIn) : Prop :=
  address.toNat ≤ 0xFFFFFF ∧
  (-90 ≤ pos.latitudeDeg ∧ pos.latitudeDeg ≤ 90) ∧
  (-180 ≤ pos.longitudeDeg ∧ pos.longitudeDeg < 180 - 90 / 2 ^ 23) ∧
  (∀ ft, pos.altitudeFt = some ft → -1012.5 ≤ ft ∧ ft < 101362.5) ∧
  (∀ kt, vel.groundSpeedKt = some kt → kt.toNat ≤ 4094) ∧
  (∀ v, vel.verticalSpeedFpm = some v → -32576 ≤ v.toInt ∧ v.toInt ≤ 32576) ∧
  cs.length ≤ 8 ∧ cs.getLast? ≠ some 0x20

/-- A message *in range* (R244). -/
def InRange (m : Message) : Prop :=
  match m with
  | .hb h => h.status2.getLsbD 7 = false ∧ h.timestampSeconds.toNat ≤ 86399
  | .own o => reportInRange o.participantAddress o.position o.velocity o.callsign
  | .traf t => reportInRange t.participantAddress t.position t.velocity t.callsign

/-- An optional number comes back absent when absent, and within `e` when present. -/
def OptWithin (e : Q) (x y : Option Q) : Prop :=
  match x, y with
  | none, none => True
  | some a, some b => Within e a b
  | none, some _ => False
  | some _, none => False

/-- A decoded position agrees with the encoded one up to R189's bounds. -/
def positionAgrees (p : Position) (d : DPosition) : Prop :=
  Within (90 / 2 ^ 23) d.latitudeDeg p.latitudeDeg ∧
  Within (90 / 2 ^ 23) d.longitudeDeg p.longitudeDeg ∧
  OptWithin 12.5 (d.altitudeFt.map fun a => (a : Q)) p.altitudeFt ∧
  d.miscIndicators = p.miscIndicators

/-- A decoded velocity agrees with the encoded one up to R189's bounds; the track is compared modulo 360. -/
def velocityAgrees (v : Velocity) (d : DVelocity) : Prop :=
  (d.groundSpeedKt.map fun k => k.toNat) = (v.groundSpeedKt.map fun k => k.toNat) ∧
  OptWithin 32 (d.verticalSpeedFpm.map fun x => (x : Q)) (v.verticalSpeedFpm.map fun x => (x.toInt : Q)) ∧
  ∃ n : Int, Within 0.703125 d.trackDeg (v.trackDeg + 360 * n)

/-- A decoded message agrees with the encoded one: same kind, same exact fields, quantized fields within R189's bounds
(R244). -/
def Agrees (m : Message) (d : DecodedMessage) : Prop :=
  match m, d with
  | .hb h, .hb g =>
    g.status1 = h.status1 ∧ g.status2 = h.status2 ∧ g.timestampSeconds.toNat = h.timestampSeconds.toNat ∧
    g.messageCount = h.messageCount
  | .own o, .own g =>
    g.participantAddress.toNat = o.participantAddress.toNat ∧ positionAgrees o.position g.position ∧
    velocityAgrees o.velocity g.velocity ∧ g.navIntegrity = o.navIntegrity ∧ g.navAccuracy = o.navAccuracy ∧
    g.emitterCategory = o.emitterCategory ∧ g.callsign = o.callsign.map .ascii ∧ g.emergencyCode = o.emergencyCode
  | .traf t, .traf g =>
    g.trafficAlert = t.trafficAlert ∧ g.addressType = t.addressType ∧
    g.participantAddress.toNat = t.participantAddress.toNat ∧ positionAgrees t.position g.position ∧
    velocityAgrees t.velocity g.velocity ∧ g.navIntegrity = t.navIntegrity ∧ g.navAccuracy = t.navAccuracy ∧
    g.emitterCategory = t.emitterCategory ∧ g.callsign = t.callsign.map .ascii ∧ g.emergencyCode = t.emergencyCode
  | _, _ => False

end Sys2Proof.Claims
end

