-- ==== Sys2Proof/Certificates/Slice0/Obligations.lean ====
section
/-!
DEFINITION. The statements for the provers. Each is about every state; the configuration is a field of the state, so each holds for
every CRC_FORM, ROUND_MODE, REASM_MAX_BYTES and REASM_INSTANCES. `Answers s i status result` (Safety.lean) says that `i`
completes in `s` with that response and changes nothing else.
-/

open Sys2Proof Sys2Proof.Machine Sys2Proof.Claims

namespace Sys2Proof.Claims

/-! ## Words of the statements -/

/-- A word read as a polynomial over GF(2): bit i is the coefficient of x^i. -/
noncomputable def wordPoly {n : Nat} (v : BitVec n) : Polynomial (ZMod 2) :=
  ∑ i ∈ Finset.range n, if v.getLsbD i then Polynomial.X ^ i else 0

/-- A byte string read as the polynomial M(x), with bit 7 of its first byte as the highest coefficient (R123). -/
noncomputable def messagePoly (d : Bytes) : Polynomial (ZMod 2) :=
  d.foldl (fun m b => m * Polynomial.X ^ 8 + wordPoly b) 0

/-- G(x) = x^16 + x^12 + x^5 + 1 (R123). -/
noncomputable def generatorPoly : Polynomial (ZMod 2) :=
  Polynomial.X ^ 16 + Polynomial.X ^ 12 + Polynomial.X ^ 5 + 1

/-- The 28 bytes of R92's table, from the field codes: an Ownship Report (id 0x0A, byte 1 0x00) or a Traffic Report (id 0x14). -/
def reportBytes (id byte1 : Byte) (addr : BitVec 32) (lat lon : UInt24) (alt : UInt12) (misc nic nacp : UInt4)
    (gs vs : UInt12) (trk emit : Byte) (cs : Bytes) (emerg : UInt4) : Bytes :=
  [id, byte1,
   addr.extractLsb' 16 8, addr.extractLsb' 8 8, addr.extractLsb' 0 8,
   lat.extractLsb' 16 8, lat.extractLsb' 8 8, lat.extractLsb' 0 8,
   lon.extractLsb' 16 8, lon.extractLsb' 8 8, lon.extractLsb' 0 8,
   alt.extractLsb' 4 8, alt.extractLsb' 0 4 ++ misc,
   nic ++ nacp,
   gs.extractLsb' 4 8, gs.extractLsb' 0 4 ++ vs.extractLsb' 8 4, vs.extractLsb' 0 8,
   trk, emit] ++ cs ++ [emerg ++ 0#4]

/-- The field codes of a report's position, velocity and callsign, each as its own transform answers it (R231). -/
def FieldCodes (s : State) (pos : Position) (vel : Velocity) (callsign : CallsignIn)
    (lat lon : UInt24) (alt gs vs : UInt12) (trk : Byte) (cs : Bytes) : Prop :=
  Answers s (.encLat pos.latitudeDeg) 0x00 (.u24 lat) ∧
  Answers s (.encLon pos.longitudeDeg) 0x00 (.u24 lon) ∧
  Answers s (.encAlt pos.altitudeFt) 0x00 (.u12 alt) ∧
  Answers s (.encGs vel.groundSpeedKt) 0x00 (.u12 gs) ∧
  Answers s (.encVs vel.verticalSpeedFpm) 0x00 (.u12 vs) ∧
  Answers s (.encTrk vel.trackDeg) 0x00 (.byte trk) ∧
  Answers s (.encCs callsign) 0x00 (.bytes cs) ∧ cs.length = 8

/-- What a reassembler makes of the bytes it holds: cut them at the delimiters; the piece before the first one is discarded, an
empty piece between two is skipped, every other closed piece is a frame, and the open piece after the last one stays with its
delimiter (R271 to R274). -/
def pieces (bytes : Bytes) : List Bytes := bytes.splitOn 0x7E

/-- The items of the closed pieces (R276). -/
def pieceItems (form : CrcForm) (bytes : Bytes) : List Item :=
  ((pieces bytes).tail.dropLast.filter fun p => !p.isEmpty).map fun p =>
    itemOf (decodeFrame form (0x7E :: (p ++ [0x7E])))

/-- The bytes of the open piece, with its delimiter; none when no delimiter has come. -/
def openPiece (bytes : Bytes) : Bytes :=
  if (pieces bytes).length = 1 then [] else 0x7E :: (pieces bytes).getLastD []

end Sys2Proof.Claims

/-- A step runs the decoded request; with nothing pending it changes nothing. R80, R345; R316 "Between requests it is idle and holds its state". The host's program as a list in the state, and the idle step, are the model's choices (notes/assumptions/1.md, 8.md). -/
def Obligations.StepRunsDecodedRequest : Prop :=
  (∀ (s : State) (r : Request) (rest : List HostMove) (i : Instr),
    s.pending = .request r :: rest → decodeRequest r = .ok i →
      step s = exec i { s with pending := rest }) ∧
  (∀ s : State, s.pending = [] → step s = .next s)

/-- An unassigned op, or an instance out of range, is answered IllegalCommand and touches nothing. R83, R303 (decision D5 of the spec). -/
def Obligations.IllegalCommandIsAResponse : Prop :=
  ∀ (s : State) (r : Request) (rest : List HostMove),
    s.pending = .request r :: rest →
    (r.op ∉ assignedOps ∨
      (((r.op = 0x50 ∧ ∃ d, r.args = .bytes d) ∨ (r.op = 0x51 ∧ r.args = .none)) ∧
        s.cfg.reasmInstances ≤ r.inst.toNat)) →
      step s = .next { s with pending := rest, responses := s.responses ++ [⟨0x21, .noInfo⟩] }

/-- After reset every buffer is empty and the configuration is the hardware's own. -/
def Obligations.ResetStateHasEmptyBuffers : Prop :=
  ∀ c : Config, (State.resetWith c).cfg = c ∧ (State.resetWith c).bufs.length = c.reasmInstances ∧
    ∀ k, (State.resetWith c).buf k = []

/-- Reset empties every buffer and touches nothing else of the CORE. R340 (decision D28 of the spec). Reset as one of the host's moves is the model's choice (notes/assumptions/9.md). -/
def Obligations.ResetMoveEmptiesEveryBuffer : Prop :=
  ∀ (s : State) (rest : List HostMove), s.pending = .reset :: rest →
    ∃ t, step s = .next t ∧ t.bufs.length = s.cfg.reasmInstances ∧ (∀ k, t.buf k = []) ∧
      t.cfg = s.cfg ∧ t.pending = rest ∧ t.responses = s.responses

/-- Every request a host can present is answered, once, and never changes the configuration. R81 "Every request gets exactly one response", R32, R34, R306. That a request with an operand record of another type cannot be presented is DEDUCED (notes/assumptions/5.md). -/
def Obligations.EachPresentableRequestGetsOneResponse : Prop :=
  ∀ (s : State) (r : Request) (rest : List HostMove),
    s.pending = .request r :: rest → presentable r = true →
      ∃ (t : State) (resp : Response), step s = .next t ∧ t.responses = s.responses ++ [resp] ∧
        t.requestIndex = s.requestIndex + 1 ∧ t.pending = rest ∧ t.cfg = s.cfg

/-- Operations that touch no buffer answer from their operands and the configuration alone. R68: "Operations that touch no buffer depend only on their operands and the constant configuration." (and R305: an operation other than FEED and REASM_RESET writes no state). R68 does not list the three payload rows; that each is an instruction with a response of its own is the model's choice (notes/assumptions/6.md). -/
def Obligations.BufferlessOperationsDependOnOperandsAlone : Prop :=
  ∀ (i : Instr) (c : Config), touchesNoBuffer i = true →
    (∃ resp : Response, ∀ s : State, s.cfg = c → Answers s i resp.status resp.result) ∧
    ∀ (j : Instr), touchesNoBuffer j = true →
      ∃ ri rj : Response, ∀ s : State, s.cfg = c →
        (∃ t, exec i s = .next t ∧ exec j t = .next { s with responses := s.responses ++ [ri, rj] }) ∧
        (∃ t, exec j s = .next t ∧ exec i t = .next { s with responses := s.responses ++ [rj, ri] })

/-- Only FEED and REASM_RESET read inst. R80: "only FEED and REASM_RESET read it, and every other operation ignores it". -/
def Obligations.InstIsIgnoredByOtherOperations : Prop :=
  ∀ (op k k' : Byte) (a : Args), op ≠ 0x50 → op ≠ 0x51 →
    decodeRequest ⟨op, k, a⟩ = decodeRequest ⟨op, k', a⟩

/-- Decoding an encoded well-formed instruction gives it back. -/
def Obligations.DecodeInvertsEncode : Prop :=
  ∀ i : Instr, wellFormed i = true → decode (encode i) = .ok i

/-- Whatever decodes is well-formed. -/
def Obligations.DecodedInstructionIsWellFormed : Prop :=
  ∀ (e : Encoded) (i : Instr), decode e = .ok i → wellFormed i = true

/-- Encoding what a request or a payload decodes to gives it back, but for an ignored inst. -/
def Obligations.EncodeInvertsDecode : Prop :=
  (∀ (r : Request) (i : Instr), decodeRequest r = .ok i →
    encode i = .request ⟨r.op, if r.op = 0x50 ∨ r.op = 0x51 then r.inst else 0x00, r.args⟩) ∧
  (∀ (p : Bytes) (i : Instr), decodePayload p = .ok i → encode i = .payload p)

/-- Requests and payloads written out from the tables decode to their instructions. -/
def Obligations.WrittenOutRequestsDecode : Prop :=
  decodeRequest ⟨0x01, 0x00, .bytes [0x31, 0x32]⟩ = .ok (.crc16 [0x31, 0x32]) ∧
  decodeRequest ⟨0x02, 0x00, .bytes [0x7D]⟩ = .ok (.escape [0x7D]) ∧
  decodeRequest ⟨0x03, 0x00, .bytes [0x7D, 0x5D]⟩ = .ok (.unescape [0x7D, 0x5D]) ∧
  decodeRequest ⟨0x05, 0x07, .bytes [0x7E, 0x7E]⟩ = .ok (.unwrap [0x7E, 0x7E]) ∧
  decodeRequest ⟨0x14, 0x00, .u24 0x21DA72⟩ = .ok (.decLatLon 0x21DA72) ∧
  decodeRequest ⟨0x1F, 0x00, .nibbles 0xA 0x9⟩ = .ok (.packNib 0xA 0x9) ∧
  decodeRequest ⟨0x38, 0x00, .bytes [0xFF]⟩ = .ok (.msgDec [0xFF]) ∧
  decodeRequest ⟨0x50, 0x01, .bytes [0x7E]⟩ = .ok (.feed 0x01 [0x7E]) ∧
  decodeRequest ⟨0x51, 0x05, .none⟩ = .ok (.reasmReset 0x05) ∧
  decodeRequest ⟨0x06, 0x00, .none⟩ = .error (.unassignedOp 0x06) ∧
  decodePayload [0x00, 0x81, 0x41, 0xDB, 0xD0, 0x08, 0x02]
    = .ok (.payloadHeartbeat [0x00, 0x81, 0x41, 0xDB, 0xD0, 0x08, 0x02]) ∧
  decodePayload (0x0A :: List.replicate 27 0x00) = .ok (.payloadOwnship (0x0A :: List.replicate 27 0x00)) ∧
  decodePayload (0x14 :: List.replicate 27 0x00) = .ok (.payloadTraffic (0x14 :: List.replicate 27 0x00))

/-- MSG_DEC: Truncated for no byte 0, UnknownKind, Truncated for too few bytes, then the kind's decoder. R236, R241 (decision D21 of the spec). `decHb`, `decOwn` and `decTraf` are R236's DEC_HB, DEC_OWN and DEC_TRAF; what they read is stated by HeartbeatPayloadDecodes and ReportPayloadsDecodeFieldByField. -/
def Obligations.MsgDecChecksThenDecodes : Prop :=
  ∀ s : State,
    Answers s (.msgDec []) 0x11 .noInfo ∧
    (∀ id p, id ≠ 0x00 → id ≠ 0x0A → id ≠ 0x14 →
      Answers s (.msgDec (id :: p)) 0x12 (.unknownKind id (id :: p))) ∧
    (∀ p, p.head? = some 0x00 →
      (p.length < 7 → Answers s (.msgDec p) 0x11 .noInfo) ∧
      (7 ≤ p.length → Answers s (.msgDec p) 0x00 (.message (decHb p)) ∧
        exec (.msgDec p) s = exec (.msgDec (p.take 7)) s)) ∧
    (∀ p, p.head? = some 0x0A →
      (p.length < 28 → Answers s (.msgDec p) 0x11 .noInfo) ∧
      (28 ≤ p.length → Answers s (.msgDec p) 0x00 (.message (decOwn p)) ∧
        exec (.msgDec p) s = exec (.msgDec (p.take 28)) s)) ∧
    (∀ p, p.head? = some 0x14 →
      (p.length < 28 → Answers s (.msgDec p) 0x11 .noInfo) ∧
      (28 ≤ p.length → Answers s (.msgDec p) 0x00 (.message (decTraf p)) ∧
        exec (.msgDec p) s = exec (.msgDec (p.take 28)) s)) ∧
    ∀ w, ¬ Answers s (.unwrap w) 0x00 (.bytes [])

/-- A payload instruction answers what MSG_DEC answers on its payload. That the payload rows of the opcode table are instructions with a response of their own is the model's choice (notes/assumptions/6.md). -/
def Obligations.PayloadRowsAnswerAsMsgDec : Prop :=
  ∀ s : State,
    (∀ p, exec (.payloadHeartbeat (0x00 :: p)) s = exec (.msgDec (0x00 :: p)) s) ∧
    (∀ p, exec (.payloadOwnship (0x0A :: p)) s = exec (.msgDec (0x0A :: p)) s) ∧
    (∀ p, exec (.payloadTraffic (0x14 :: p)) s = exec (.msgDec (0x14 :: p)) s) ∧
    (∀ p, (p.length < 7 → Answers s (.payloadHeartbeat p) 0x11 .noInfo) ∧
      (p.length < 28 → Answers s (.payloadOwnship p) 0x11 .noInfo ∧ Answers s (.payloadTraffic p) 0x11 .noInfo)) ∧
    (∀ p, (7 ≤ p.length → ∃ m, Answers s (.payloadHeartbeat p) 0x00 (.message (.hb m))) ∧
      (28 ≤ p.length → (∃ m, Answers s (.payloadOwnship p) 0x00 (.message (.own m))) ∧
        ∃ m, Answers s (.payloadTraffic p) 0x00 (.message (.traf m))))

/-- The printed CRC table is what the generation rule gives. R120's table against R120's generation rule, which the spec marks as general knowledge and the table as derived from it. -/
def Obligations.CrcTableIsTheGeneratedTable : Prop :=
  crcTable.length = 256 ∧
  ∀ i : Byte, crcEntry i =
    Nat.iterate (fun c : BitVec 16 => if c.getLsbD 15 then (c <<< 1) ^^^ 0x1021 else c <<< 1) 8 (i.setWidth 16 <<< 8)

/-- CRC16 starts at 0 and is updated once per byte by the equation of CRC_FORM. -/
def Obligations.Crc16UpdatesOncePerByte : Prop :=
  ∀ (s : State) (data : Bytes) (b : Byte),
    Answers s (.crc16 []) 0x00 (.u16 0x0000) ∧
    ∃ c c' : BitVec 16, Answers s (.crc16 data) 0x00 (.u16 c) ∧ Answers s (.crc16 (data ++ [b])) 0x00 (.u16 c') ∧
      c' = match s.cfg.crcForm with
        | .icd => crcEntry (c.extractLsb' 8 8) ^^^ (c <<< 8) ^^^ b.setWidth 16
        | .xmodem => (c <<< 8) ^^^ crcEntry (c.extractLsb' 8 8 ^^^ b)

/-- CRC16 is the remainder of the message polynomial by G(x). The algebraic meaning of R123, which the spec marks as general knowledge and derived. -/
def Obligations.Crc16IsAPolynomialRemainder : Prop :=
  ∀ (s : State) (d : Bytes), ∃ c : BitVec 16, Answers s (.crc16 d) 0x00 (.u16 c) ∧
    wordPoly c = match s.cfg.crcForm with
      | .icd => messagePoly d %ₘ generatorPoly
      | .xmodem => (messagePoly d * Polynomial.X ^ 16) %ₘ generatorPoly

/-- Flipping any one bit of a payload changes its CRC, and UNWRAP of the frame is CrcMismatch. R123's last sentence, which the spec derives: the property "holds exactly under both forms for a single-bit flip". -/
def Obligations.FlippedBitIsDetected : Prop :=
  ∀ (s : State) (p : Bytes) (k j : Nat), k < p.length → j < 8 →
    ∃ c c' : BitVec 16, Answers s (.crc16 p) 0x00 (.u16 c) ∧ Answers s (.crc16 (flipBit p k j)) 0x00 (.u16 c') ∧ c' ≠ c ∧
      ∃ body, Answers s (.escape (flipBit p k j ++ [c.extractLsb' 0 8, c.extractLsb' 8 8])) 0x00 (.bytes body) ∧
        Answers s (.unwrap ([0x7E] ++ body ++ [0x7E])) 0x04 .noInfo

/-- ESCAPE writes each special byte as two and every other byte as itself. R141's pseudocode, and the sentence the spec derives from it: "The output never contains 0x7E, and every 0x7D in it is followed by 0x5D or 0x5E". -/
def Obligations.EscapeStuffsEveryByte : Prop :=
  ∀ (s : State) (data : Bytes), ∃ out : Bytes, Answers s (.escape data) 0x00 (.bytes out) ∧
    out = data.flatMap (fun b => if Special b then [0x7D, b ^^^ 0x20] else [b]) ∧
    0x7E ∉ out ∧ EscapesPaired out ∧
    out.length = data.length + data.countP (fun b => decide (Special b))

/-- UNESCAPE undoes one unit at a time, and fails only on an unmatched final escape. -/
def Obligations.UnescapeReadsOneUnitAtATime : Prop :=
  ∀ s : State,
    Answers s (.unescape []) 0x00 (.bytes []) ∧
    Answers s (.unescape [0x7D]) 0x02 .noInfo ∧
    (∀ data out, Answers s (.unescape data) 0x00 (.bytes out) →
      (∀ b, b ≠ 0x7D → Answers s (.unescape (b :: data)) 0x00 (.bytes (b :: out))) ∧
      (∀ x, Answers s (.unescape (0x7D :: x :: data)) 0x00 (.bytes ((x ^^^ 0x20) :: out)))) ∧
    (∀ data, Answers s (.unescape data) 0x02 .noInfo →
      (∀ b, b ≠ 0x7D → Answers s (.unescape (b :: data)) 0x02 .noInfo) ∧
      (∀ x, Answers s (.unescape (0x7D :: x :: data)) 0x02 .noInfo)) ∧
    (∀ data, (∃ out, Answers s (.unescape data) 0x00 (.bytes out)) ∨ Answers s (.unescape data) 0x02 .noInfo)

/-- UNESCAPE of ESCAPE of any byte string is that string. The escaping round trip, R146, which the spec derives from R141 and R142. -/
def Obligations.UnescapeInvertsEscape : Prop :=
  ∀ (s : State) (x : Bytes), ∃ y : Bytes,
    Answers s (.escape x) 0x00 (.bytes y) ∧ Answers s (.unescape y) 0x00 (.bytes x)

/-- WRAP is 0x7E, the stuffed payload and little-endian CRC, 0x7E. -/
def Obligations.WrapIsDelimitersAroundTheStuffedBody : Prop :=
  ∀ (s : State) (p : Bytes), ∃ (c : BitVec 16) (body : Bytes),
    Answers s (.crc16 p) 0x00 (.u16 c) ∧
    Answers s (.escape (p ++ [c.extractLsb' 0 8, c.extractLsb' 8 8])) 0x00 (.bytes body) ∧
    Answers s (.wrap p) 0x00 (.bytes ([0x7E] ++ body ++ [0x7E]))

/-- A wrapped frame is delimited at both ends and nowhere else. The wire invariant R147 and the length of R148, which the spec derives. -/
def Obligations.WrappedFrameHasNoInnerDelimiter : Prop :=
  ∀ (s : State) (p : Bytes), ∃ (c : BitVec 16) (mid : Bytes),
    Answers s (.crc16 p) 0x00 (.u16 c) ∧
    Answers s (.wrap p) 0x00 (.bytes (0x7E :: (mid ++ [0x7E]))) ∧
    0x7E ∉ mid ∧ EscapesPaired (0x7E :: (mid ++ [0x7E])) ∧
    (0x7E :: (mid ++ [0x7E]) : Bytes).length =
      p.length + 4 + (p ++ [c.extractLsb' 0 8, c.extractLsb' 8 8]).countP (fun b => decide (Special b))

/-- UNWRAP of WRAP of a non-empty payload is that payload. The framing round trip R148, which the spec derives. -/
def Obligations.UnwrapInvertsWrap : Prop :=
  ∀ (s : State) (p : Bytes), ∃ w : Bytes, Answers s (.wrap p) 0x00 (.bytes w) ∧
    (p ≠ [] → Answers s (.unwrap w) 0x00 (.bytes p)) ∧
    (p = [] → Answers s (.unwrap w) 0x03 .noInfo)

/-- UNWRAP reports NotAFrame, TruncatedEscape, EmptyPayload and CrcMismatch in that order. R144, R145 (decision D19 of the spec). -/
def Obligations.UnwrapMakesItsChecksInOrder : Prop :=
  ∀ (s : State) (w : Bytes),
    ((w.length < 4 ∨ w.head? ≠ some 0x7E ∨ w.getLast? ≠ some 0x7E) → Answers s (.unwrap w) 0x01 .noInfo) ∧
    (∀ inner, w = 0x7E :: (inner ++ [0x7E]) → 4 ≤ w.length →
      (Answers s (.unescape inner) 0x02 .noInfo → Answers s (.unwrap w) 0x02 .noInfo) ∧
      (∀ u, Answers s (.unescape inner) 0x00 (.bytes u) → u.length ≤ 2 → Answers s (.unwrap w) 0x03 .noInfo) ∧
      (∀ p lo hi, Answers s (.unescape inner) 0x00 (.bytes (p ++ [lo, hi])) → p ≠ [] →
        (Answers s (.crc16 p) 0x00 (.u16 (hi ++ lo)) → Answers s (.unwrap w) 0x00 (.bytes p)) ∧
        (¬ Answers s (.crc16 p) 0x00 (.u16 (hi ++ lo)) → Answers s (.unwrap w) 0x04 .noInfo)))

/-- ROUND(q) is the nearest integer, ties broken by ROUND_MODE, and no other integer is. -/
def Obligations.RoundIsTheNearestInteger : Prop :=
  ∀ (mode : RoundMode) (q : Q), IsRound mode q (roundQ mode q) ∧ ∀ r, IsRound mode q r → r = roundQ mode q

/-- ENC_LAT clamps to ±90°, rounds to steps of 180/2^23, and narrows to 24 bits. -/
def Obligations.EncLatQuantizesTheClampedLatitude : Prop :=
  ∀ (s : State) (deg : Q), ∃ r : Int,
    IsRound s.cfg.roundMode (max (-90) (min deg 90) * 2 ^ 23 / 180) r ∧ -(2 ^ 22) ≤ r ∧ r ≤ 2 ^ 22 ∧
    ∃ code : UInt24, (code.toNat : Int) = r % 2 ^ 24 ∧ Answers s (.encLat deg) 0x00 (.u24 code)

/-- ENC_LON clamps to ±180°, rounds, and narrows; from 180 − 90/2^23 up the code is 0x800000. -/
def Obligations.EncLonQuantizesTheClampedLongitude : Prop :=
  ∀ (s : State) (deg : Q),
    (∃ r : Int, IsRound s.cfg.roundMode (max (-180) (min deg 180) * 2 ^ 23 / 180) r ∧ -(2 ^ 23) ≤ r ∧ r ≤ 2 ^ 23 ∧
      ∃ code : UInt24, (code.toNat : Int) = r % 2 ^ 24 ∧ Answers s (.encLon deg) 0x00 (.u24 code)) ∧
    (180 - 90 / 2 ^ 23 ≤ deg → Answers s (.encLon deg) 0x00 (.u24 0x800000))

/-- DEC_LATLON is the signed code times 180/2^23, exactly. -/
def Obligations.DecLatLonIsTheExactAngle : Prop :=
  ∀ (s : State) (raw : UInt24), ∃ q : Q, Answers s (.decLatLon raw) 0x00 (.rational q) ∧
    q * 2 ^ 23 = (if raw.toNat < 2 ^ 23 then (raw.toNat : Q) else (raw.toNat : Q) - 2 ^ 24) * 180 ∧
    -180 ≤ q ∧ q < 180

/-- ENC_ALT rounds (ft + 1000)/25, clamps to 0..0xFFE, and keeps 0xFFF for no data. -/
def Obligations.EncAltRoundsThenClamps : Prop :=
  ∀ s : State, Answers s (.encAlt none) 0x00 (.u12 0xFFF) ∧
    ∀ ft : Q, ∃ (r : Int) (code : UInt12), IsRound s.cfg.roundMode ((ft + 1000) / 25) r ∧
      (code.toNat : Int) = max 0 (min r 0xFFE) ∧ code ≠ 0xFFF ∧ Answers s (.encAlt (some ft)) 0x00 (.u12 code)

/-- DEC_ALT, DEC_GS, DEC_VS and DEC_TRK: the sentinel is no data, every other code its number. -/
def Obligations.CodesDecodeToTheirNumbers : Prop :=
  ∀ (s : State) (raw : UInt12) (trk : Byte),
    Answers s (.decAlt 0xFFF) 0x00 (.optInt none) ∧
    (raw ≠ 0xFFF → Answers s (.decAlt raw) 0x00 (.optInt (some ((raw.toNat : Int) * 25 - 1000)))) ∧
    Answers s (.decGs 0xFFF) 0x00 (.optU12 none) ∧
    (raw ≠ 0xFFF → Answers s (.decGs raw) 0x00 (.optU12 (some raw))) ∧
    Answers s (.decVs 0x800) 0x00 (.optInt none) ∧
    (raw ≠ 0x800 → Answers s (.decVs raw) 0x00
      (.optInt (some ((if raw.toNat < 2048 then (raw.toNat : Int) else (raw.toNat : Int) - 4096) * 64)))) ∧
    (∃ q : Q, Answers s (.decTrk trk) 0x00 (.rational q) ∧ q * 256 = (trk.toNat : Q) * 360 ∧ 0 ≤ q ∧ q < 360)

/-- ENC_GS is the speed in knots, clamped to 0xFFE; 0xFFF is no data. -/
def Obligations.EncGsClampsToTheLargestCode : Prop :=
  ∀ s : State, Answers s (.encGs none) 0x00 (.u12 0xFFF) ∧
    ∀ kt : BitVec 16, ∃ code : UInt12, code.toNat = min kt.toNat 0xFFE ∧ Answers s (.encGs (some kt)) 0x00 (.u12 code)

/-- ENC_VS saturates at ±32576 fpm, rounds to units of 64, and never produces 0x800 from a number. R181 (decision D16 of the spec). -/
def Obligations.EncVsSaturatesThenRounds : Prop :=
  ∀ s : State, Answers s (.encVs none) 0x00 (.u12 0x800) ∧
    ∀ v : BitVec 32, ∃ (r : Int) (code : UInt12),
      IsRound s.cfg.roundMode (((max (-32576) (min v.toInt 32576) : Int) : Q) / 64) r ∧ -509 ≤ r ∧ r ≤ 509 ∧
      (code.toNat : Int) = r % 4096 ∧ code ≠ 0x800 ∧ Answers s (.encVs (some v)) 0x00 (.u12 code)

/-- ENC_TRK rounds deg·256/360 and reduces it modulo 256. -/
def Obligations.EncTrkRoundsModulo256 : Prop :=
  ∀ (s : State) (deg : Q), ∃ (r : Int) (code : Byte), IsRound s.cfg.roundMode (deg * 256 / 360) r ∧
    (code.toNat : Int) = r % 256 ∧ Answers s (.encTrk deg) 0x00 (.byte code)

/-- ENC_CS gives 8 bytes: the first characters, then spaces. -/
def Obligations.EncCsTruncatesOrPads : Prop :=
  ∀ (s : State) (cs : CallsignIn), ∃ out : Bytes, Answers s (.encCs cs) 0x00 (.bytes out) ∧ out.length = 8 ∧
    ∀ i, i < 8 → out.getD i 0 = match cs[i]? with
      | some c => c.setWidth 8
      | none => 0x20

/-- DEC_CS maps each byte to a character or the marker, and strips trailing spaces only. -/
def Obligations.DecCsStripsTrailingSpacesOnly : Prop :=
  ∀ (s : State) (b : Vector Byte 8), ∃ cs : CallsignOut, Answers s (.decCs b) 0x00 (.callsign cs) ∧
    (∃ n, b.toList.map (fun x => if x.toNat ≤ 0x7F then CallChar.ascii (x.setWidth 7) else CallChar.replacement)
      = cs ++ List.replicate n (.ascii 0x20)) ∧
    cs.getLast? ≠ some (.ascii 0x20)

/-- A callsign of at most 8 characters that does not end in a space comes back unchanged. The callsign part of R244, which the spec derives. -/
def Obligations.CallsignSurvivesTheRoundTrip : Prop :=
  ∀ (s : State) (cs : CallsignIn), cs.length ≤ 8 → cs.getLast? ≠ some 0x20 →
    ∃ b : Vector Byte 8, Answers s (.encCs cs) 0x00 (.bytes b.toList) ∧
      Answers s (.decCs b) 0x00 (.callsign (cs.map .ascii))

/-- PACK_NIB puts hi in bits 7:4 and lo in bits 3:0; UNPACK_NIB reads them back. -/
def Obligations.NibblePairsRoundTrip : Prop :=
  ∀ s : State,
    (∀ hi lo : UInt4, ∃ b : Byte, b.toNat = hi.toNat * 16 + lo.toNat ∧ Answers s (.packNib hi lo) 0x00 (.byte b) ∧
      Answers s (.unpackNib b) 0x00 (.nibbles hi lo)) ∧
    (∀ b : Byte, ∃ hi lo : UInt4, hi.toNat = b.toNat / 16 ∧ lo.toNat = b.toNat % 16 ∧
      Answers s (.unpackNib b) 0x00 (.nibbles hi lo))

/-- PACK24 is big-endian and rejects more than 24 bits; UNPACK24 reads it back. -/
def Obligations.Pack24RejectsAndUnpack24Inverts : Prop :=
  ∀ s : State,
    (∀ v : BitVec 32, 0xFFFFFF < v.toNat → Answers s (.pack24 v) 0x13 .noInfo) ∧
    (∀ v : BitVec 32, v.toNat ≤ 0xFFFFFF → ∃ b0 b1 b2 : Byte, v.toNat = b0.toNat * 65536 + b1.toNat * 256 + b2.toNat ∧
      Answers s (.pack24 v) 0x00 (.bytes [b0, b1, b2]) ∧ Answers s (.unpack24 #v[b0, b1, b2]) 0x00 (.u24 (v.setWidth 24))) ∧
    (∀ b0 b1 b2 : Byte, ∃ v : UInt24, v.toNat = b0.toNat * 65536 + b1.toNat * 256 + b2.toNat ∧
      Answers s (.unpack24 #v[b0, b1, b2]) 0x00 (.u24 v))

/-- No data encodes to the sentinel and back; no number does; saturated speeds share a code. R245 and R94, which the spec derives from R177 to R182. -/
def Obligations.SentinelsMeanNoDataAndNothingElse : Prop :=
  ∀ s : State,
    (Answers s (.encAlt none) 0x00 (.u12 0xFFF) ∧ Answers s (.decAlt 0xFFF) 0x00 (.optInt none) ∧
      ∀ ft, ¬ Answers s (.encAlt (some ft)) 0x00 (.u12 0xFFF)) ∧
    (Answers s (.encGs none) 0x00 (.u12 0xFFF) ∧ Answers s (.decGs 0xFFF) 0x00 (.optU12 none) ∧
      ∀ kt, ¬ Answers s (.encGs (some kt)) 0x00 (.u12 0xFFF)) ∧
    (Answers s (.encVs none) 0x00 (.u12 0x800) ∧ Answers s (.decVs 0x800) 0x00 (.optInt none) ∧
      ∀ v, ¬ Answers s (.encVs (some v)) 0x00 (.u12 0x800)) ∧
    (∀ v : BitVec 32, 32576 ≤ v.toInt → Answers s (.encVs (some v)) 0x00 (.u12 0x1FD)) ∧
    (∀ v : BitVec 32, v.toInt ≤ -32576 → Answers s (.encVs (some v)) 0x00 (.u12 0xE03)) ∧
    Answers s (.decVs 0x1FD) 0x00 (.optInt (some 32576)) ∧ Answers s (.decVs 0xE03) 0x00 (.optInt (some (-32576)))

/-- Every in-range field comes back within half a quantization step. The bounds of R189, which the spec derives. -/
def Obligations.FieldRoundTripsStayWithinHalfAStep : Prop :=
  ∀ s : State,
    (∀ deg : Q, -90 ≤ deg → deg ≤ 90 → ∃ code q, Answers s (.encLat deg) 0x00 (.u24 code) ∧
      Answers s (.decLatLon code) 0x00 (.rational q) ∧ Within (90 / 2 ^ 23) q deg) ∧
    (∀ deg : Q, -180 ≤ deg → deg < 180 - 90 / 2 ^ 23 → ∃ code q, Answers s (.encLon deg) 0x00 (.u24 code) ∧
      Answers s (.decLatLon code) 0x00 (.rational q) ∧ Within (90 / 2 ^ 23) q deg) ∧
    (∀ ft : Q, -1012.5 ≤ ft → ft < 101362.5 → ∃ (code : UInt12) (a : Int),
      Answers s (.encAlt (some ft)) 0x00 (.u12 code) ∧ Answers s (.decAlt code) 0x00 (.optInt (some a)) ∧
      Within 12.5 a ft) ∧
    (∀ kt : BitVec 16, kt.toNat ≤ 4094 → ∃ code : UInt12, Answers s (.encGs (some kt)) 0x00 (.u12 code) ∧
      Answers s (.decGs code) 0x00 (.optU12 (some code)) ∧ code.toNat = kt.toNat) ∧
    (∀ v : BitVec 32, -32576 ≤ v.toInt → v.toInt ≤ 32576 → ∃ (code : UInt12) (a : Int),
      Answers s (.encVs (some v)) 0x00 (.u12 code) ∧ Answers s (.decVs code) 0x00 (.optInt (some a)) ∧
      Within 32 a v.toInt) ∧
    (∀ deg : Q, ∃ (code : Byte) (q : Q) (n : Int), Answers s (.encTrk deg) 0x00 (.byte code) ∧
      Answers s (.decTrk code) 0x00 (.rational q) ∧ Within 0.703125 q (deg + 360 * n))

/-- MSG_ENC_HB writes R93's seven bytes, with the timestamp clamped to 86399. R93, R233 (decision D12 of the spec). -/
def Obligations.HeartbeatPayloadFollowsItsLayout : Prop :=
  ∀ (s : State) (m : Heartbeat), ∃ (ts : Nat) (b2 t0 t1 c1 c0 : Byte), ts = min m.timestampSeconds.toNat 86399 ∧
    b2.toNat = ts / 65536 * 128 + m.status2.toNat % 128 ∧
    t0.toNat = ts % 256 ∧ t1.toNat = ts / 256 % 256 ∧
    c1.toNat = m.messageCount.toNat / 256 ∧ c0.toNat = m.messageCount.toNat % 256 ∧
    Answers s (.msgEncHb m) 0x00 (.bytes [0x00, m.status1, b2, t0, t1, c1, c0])

/-- MSG_ENC_OWN rejects a wide address and otherwise writes R92's 28 bytes. R231, R234 (decisions D9, D10 of the spec). -/
def Obligations.OwnshipPayloadFollowsItsLayout : Prop :=
  ∀ (s : State) (m : OwnshipReport),
    (0xFFFFFF < m.participantAddress.toNat → Answers s (.msgEncOwn m) 0x13 .noInfo) ∧
    (m.participantAddress.toNat ≤ 0xFFFFFF → ∃ lat lon alt gs vs trk cs,
      FieldCodes s m.position m.velocity m.callsign lat lon alt gs vs trk cs ∧
      Answers s (.msgEncOwn m) 0x00 (.bytes (reportBytes 0x0A 0x00 m.participantAddress lat lon alt
        m.position.miscIndicators m.navIntegrity m.navAccuracy gs vs trk m.emitterCategory cs m.emergencyCode)))

/-- MSG_ENC_TRAF rejects a wide address and otherwise writes R92's 28 bytes. R235 (decision D11 of the spec). -/
def Obligations.TrafficPayloadFollowsItsLayout : Prop :=
  ∀ (s : State) (m : TrafficReport),
    (0xFFFFFF < m.participantAddress.toNat → Answers s (.msgEncTraf m) 0x13 .noInfo) ∧
    (m.participantAddress.toNat ≤ 0xFFFFFF → ∃ (byte1 : Byte) (lat lon : UInt24) (alt gs vs : UInt12) (trk : Byte)
        (cs : Bytes),
      byte1.toNat = (if m.trafficAlert then 16 else 0) + m.addressType.toNat ∧
      FieldCodes s m.position m.velocity m.callsign lat lon alt gs vs trk cs ∧
      Answers s (.msgEncTraf m) 0x00 (.bytes (reportBytes 0x14 byte1 m.participantAddress lat lon alt
        m.position.miscIndicators m.navIntegrity m.navAccuracy gs vs trk m.emitterCategory cs m.emergencyCode)))

/-- ENCODE_FRAME is WRAP of the kind's payload, or InvalidAddress. -/
def Obligations.EncodeFrameIsWrapAfterMsgEnc : Prop :=
  ∀ s : State,
    (∀ h, ∃ p w, Answers s (.msgEncHb h) 0x00 (.bytes p) ∧ Answers s (.wrap p) 0x00 (.bytes w) ∧
      Answers s (.encodeFrame (.hb h)) 0x00 (.bytes w)) ∧
    (∀ o, (∃ p w, Answers s (.msgEncOwn o) 0x00 (.bytes p) ∧ Answers s (.wrap p) 0x00 (.bytes w) ∧
        Answers s (.encodeFrame (.own o)) 0x00 (.bytes w)) ∨
      (Answers s (.msgEncOwn o) 0x13 .noInfo ∧ Answers s (.encodeFrame (.own o)) 0x13 .noInfo)) ∧
    (∀ t, (∃ p w, Answers s (.msgEncTraf t) 0x00 (.bytes p) ∧ Answers s (.wrap p) 0x00 (.bytes w) ∧
        Answers s (.encodeFrame (.traf t)) 0x00 (.bytes w)) ∨
      (Answers s (.msgEncTraf t) 0x13 .noInfo ∧ Answers s (.encodeFrame (.traf t)) 0x13 .noInfo))

/-- DECODE_FRAME is MSG_DEC of what UNWRAP answers; an UNWRAP error ends it. -/
def Obligations.DecodeFrameIsMsgDecAfterUnwrap : Prop :=
  ∀ (s : State) (w : Bytes),
    (∀ p, Answers s (.unwrap w) 0x00 (.bytes p) → exec (.decodeFrame w) s = exec (.msgDec p) s) ∧
    (∀ st, Answers s (.unwrap w) st .noInfo → Answers s (.decodeFrame w) st .noInfo) ∧
    ((∃ p, Answers s (.unwrap w) 0x00 (.bytes p)) ∨
      ∃ st, (st = 0x01 ∨ st = 0x02 ∨ st = 0x03 ∨ st = 0x04) ∧ Answers s (.unwrap w) st .noInfo)

/-- Heartbeat frames are 11 to 20 bytes, Ownship and Traffic frames 32 to 62. The frame lengths of R98, which the spec derives from R141 and R143. -/
def Obligations.FramesHaveBoundedLength : Prop :=
  ∀ s : State,
    (∀ h, ∃ w : Bytes, Answers s (.encodeFrame (.hb h)) 0x00 (.bytes w) ∧ 11 ≤ w.length ∧ w.length ≤ 20) ∧
    (∀ o, o.participantAddress.toNat ≤ 0xFFFFFF →
      ∃ w : Bytes, Answers s (.encodeFrame (.own o)) 0x00 (.bytes w) ∧ 32 ≤ w.length ∧ w.length ≤ 62) ∧
    (∀ t, t.participantAddress.toNat ≤ 0xFFFFFF →
      ∃ w : Bytes, Answers s (.encodeFrame (.traf t)) 0x00 (.bytes w) ∧ 32 ≤ w.length ∧ w.length ≤ 62)

/-- A Heartbeat payload decodes to its fields, with the 17-bit timestamp rebuilt. -/
def Obligations.HeartbeatPayloadDecodes : Prop :=
  ∀ (s : State) (s1 b2 t0 t1 c1 c0 : Byte) (more : Bytes), ∃ m : DHeartbeat,
    m.status1 = s1 ∧ m.status2.toNat = b2.toNat % 128 ∧
    m.timestampSeconds.toNat = b2.toNat / 128 * 65536 + t1.toNat * 256 + t0.toNat ∧
    m.messageCount.toNat = c1.toNat * 256 + c0.toNat ∧
    Answers s (.msgDec (0x00 :: s1 :: b2 :: t0 :: t1 :: c1 :: c0 :: more)) 0x00 (.message (.hb m))

/-- Ownship and Traffic payloads decode field by field from R92's places. -/
def Obligations.ReportPayloadsDecodeFieldByField : Prop :=
  ∀ (s : State) (p : Bytes), 28 ≤ p.length →
    ∃ (lat lon trk : Q) (alt vs : Option Int) (gs : Option UInt12) (cs : CallsignOut),
      Answers s (.decLatLon (p.getD 5 0 ++ p.getD 6 0 ++ p.getD 7 0)) 0x00 (.rational lat) ∧
      Answers s (.decLatLon (p.getD 8 0 ++ p.getD 9 0 ++ p.getD 10 0)) 0x00 (.rational lon) ∧
      Answers s (.decAlt (p.getD 11 0 ++ (p.getD 12 0).extractLsb' 4 4)) 0x00 (.optInt alt) ∧
      Answers s (.decGs (p.getD 14 0 ++ (p.getD 15 0).extractLsb' 4 4)) 0x00 (.optU12 gs) ∧
      Answers s (.decVs ((p.getD 15 0).extractLsb' 0 4 ++ p.getD 16 0)) 0x00 (.optInt vs) ∧
      Answers s (.decTrk (p.getD 17 0)) 0x00 (.rational trk) ∧
      Answers s (.decCs #v[p.getD 19 0, p.getD 20 0, p.getD 21 0, p.getD 22 0, p.getD 23 0, p.getD 24 0, p.getD 25 0,
        p.getD 26 0]) 0x00 (.callsign cs) ∧
      (p.head? = some 0x0A → Answers s (.msgDec p) 0x00 (.message (.own
        { participantAddress := p.getD 2 0 ++ p.getD 3 0 ++ p.getD 4 0
          position := ⟨lat, lon, alt, (p.getD 12 0).extractLsb' 0 4⟩
          velocity := ⟨gs, vs, trk⟩
          navIntegrity := (p.getD 13 0).extractLsb' 4 4
          navAccuracy := (p.getD 13 0).extractLsb' 0 4
          emitterCategory := p.getD 18 0
          callsign := cs
          emergencyCode := (p.getD 27 0).extractLsb' 4 4 }))) ∧
      (p.head? = some 0x14 → Answers s (.msgDec p) 0x00 (.message (.traf
        { trafficAlert := (p.getD 1 0).getLsbD 4
          addressType := (p.getD 1 0).extractLsb' 0 3
          participantAddress := p.getD 2 0 ++ p.getD 3 0 ++ p.getD 4 0
          position := ⟨lat, lon, alt, (p.getD 12 0).extractLsb' 0 4⟩
          velocity := ⟨gs, vs, trk⟩
          navIntegrity := (p.getD 13 0).extractLsb' 4 4
          navAccuracy := (p.getD 13 0).extractLsb' 0 4
          emitterCategory := p.getD 18 0
          callsign := cs
          emergencyCode := (p.getD 27 0).extractLsb' 4 4 })))

/-- An in-range message comes back from ENCODE_FRAME and DECODE_FRAME, up to quantization. The round trip R244, which the spec derives. -/
def Obligations.InRangeMessageSurvivesTheWire : Prop :=
  ∀ (s : State) (m : Message), InRange m → ∃ (w : Bytes) (d : DecodedMessage),
    Answers s (.encodeFrame m) 0x00 (.bytes w) ∧ Answers s (.decodeFrame w) 0x00 (.message d) ∧ Agrees m d

/-- FEED emits one item per non-empty closed piece between delimiters, and keeps the open one. R271 to R276, against a definition that has no loop: cutting at the delimiters (decisions D22 to D25, D38, D39 of the spec). -/
def Obligations.FeedCutsAtTheDelimiters : Prop :=
  ∀ (s : State) (k : Byte) (chunk : Bytes), k.toNat < s.cfg.reasmInstances →
    exec (.feed k chunk) s = .next
      (if s.cfg.reasmMaxBytes < (openPiece (s.buf k.toNat ++ chunk)).length then
        { s with bufs := s.bufs.set k.toNat []
                 responses := s.responses ++
                  [⟨0x00, .items (pieceItems s.cfg.crcForm (s.buf k.toNat ++ chunk) ++ [.err .bufferOverflow])⟩] }
      else
        { s with bufs := s.bufs.set k.toNat (openPiece (s.buf k.toNat ++ chunk))
                 responses := s.responses ++
                  [⟨0x00, .items (pieceItems s.cfg.crcForm (s.buf k.toNat ++ chunk))⟩] })

/-- REASM_RESET empties its instance's buffer and touches nothing else. R277 (decision D28 of the spec). -/
def Obligations.ReasmResetEmptiesOneBuffer : Prop :=
  ∀ (s : State) (k : Byte), k.toNat < s.cfg.reasmInstances →
    ∃ t, exec (.reasmReset k) s = .next t ∧ t.responses = s.responses ++ [⟨0x00, .unit⟩] ∧ t.buf k.toNat = [] ∧
      (∀ j, j ≠ k.toNat → t.buf j = s.buf j) ∧ t.bufs.length = s.bufs.length ∧ t.cfg = s.cfg ∧ t.pending = s.pending

/-- Only FEED and REASM_RESET naming instance k change Buf[k]; nothing changes the configuration. R35, R36, R34, R305: "a request naming instance k reads and writes only Buf[k]". -/
def Obligations.OnlyFeedAndResetWriteABuffer : Prop :=
  ∀ (i : Instr) (s t : State), exec i s = .next t →
    t.cfg = s.cfg ∧ t.pending = s.pending ∧ t.bufs.length = s.bufs.length ∧
    ∀ j, t.buf j ≠ s.buf j → ∃ k : Byte, k.toNat = j ∧ (i = .reasmReset k ∨ ∃ d, i = .feed k d)

/-- What FEED answers and leaves depends on no other instance's buffer. R36: the instances are independent. -/
def Obligations.FeedReadsOnlyItsOwnBuffer : Prop :=
  ∀ (s s' t t' : State) (k : Byte) (chunk : Bytes),
    s.cfg = s'.cfg → s.buf k.toNat = s'.buf k.toNat → s.bufs.length = s.cfg.reasmInstances →
    s'.bufs.length = s'.cfg.reasmInstances → k.toNat < s.cfg.reasmInstances →
    exec (.feed k chunk) s = .next t → exec (.feed k chunk) s' = .next t' →
      t.responses.getLast? = t'.responses.getLast? ∧ t.buf k.toNat = t'.buf k.toNat

/-- However a stream is split into chunks, the items and the buffer are the same, unless a FEED overflows. Split tolerance, R278 item 2, which the spec derives. -/
def Obligations.SplittingAStreamChangesNoItem : Prop :=
  ∀ (s : State) (k : Byte) (chunks : List Bytes) (t u : State), Inv s → k.toNat < s.cfg.reasmInstances →
    s.responses = [] →
    Sys2Proof.core.run chunks.length { s with pending := feeds k chunks } = .next t →
    Sys2Proof.core.run 1 { s with pending := feeds k [chunks.flatten] } = .next u →
    .err .bufferOverflow ∉ itemsIn t.responses → .err .bufferOverflow ∉ itemsIn u.responses →
      itemsIn t.responses = itemsIn u.responses ∧ t.bufs = u.bufs

/-- A good frame at the end of any bytes is decoded: its item comes last. Resynchronisation, R278 item 4, which the spec derives. -/
def Obligations.FrameAfterAnyNoiseIsDecoded : Prop :=
  ∀ (s : State) (k : Byte) (noise mid : Bytes) (m : DecodedMessage), s.cfg.Legal →
    k.toNat < s.cfg.reasmInstances → 0x7E ∉ mid →
    Answers s (.decodeFrame (0x7E :: (mid ++ [0x7E]))) 0x00 (.message m) →
      ∃ before : List Item, exec (.feed k (noise ++ 0x7E :: (mid ++ [0x7E]))) s = .next
        { s with bufs := s.bufs.set k.toNat [0x7E]
                 responses := s.responses ++ [⟨0x00, .items (before ++ [.ok m])⟩] }

/-- n good frames in one chunk, back to back or sharing delimiters, give n Ok items. Multiple frames, R278 item 3, which the spec derives. -/
def Obligations.ManyFramesGiveManyItems : Prop :=
  ∀ (s : State) (k : Byte) (frames : List (Bytes × DecodedMessage)), s.cfg.Legal →
    k.toNat < s.cfg.reasmInstances → (s.buf k.toNat = [] ∨ s.buf k.toNat = [0x7E]) → frames ≠ [] →
    (∀ f ∈ frames, 0x7E ∉ f.1 ∧ Answers s (.decodeFrame (0x7E :: (f.1 ++ [0x7E]))) 0x00 (.message f.2)) →
    ∀ chunk, (chunk = frames.flatMap (fun f => 0x7E :: (f.1 ++ [0x7E])) ∨
        chunk = 0x7E :: frames.flatMap (fun f => f.1 ++ [0x7E])) →
      exec (.feed k chunk) s = .next
        { s with bufs := s.bufs.set k.toNat [0x7E]
                 responses := s.responses ++ [⟨0x00, .items (frames.map fun f => .ok f.2)⟩] }

/-- An open span longer than REASM_MAX_BYTES is dropped with one BufferOverflow item. R275: "Beyond" is read as strictly greater (decisions D25, D26 of the spec). -/
def Obligations.OverflowClearsTheBuffer : Prop :=
  ∀ (s : State) (k : Byte) (held more : Bytes), k.toNat < s.cfg.reasmInstances →
    s.buf k.toNat = 0x7E :: held → 0x7E ∉ held → 0x7E ∉ more →
    (held.length + more.length + 1 ≤ s.cfg.reasmMaxBytes →
      exec (.feed k more) s = .next
        { s with bufs := s.bufs.set k.toNat (0x7E :: (held ++ more))
                 responses := s.responses ++ [⟨0x00, .items []⟩] }) ∧
    (s.cfg.reasmMaxBytes < held.length + more.length + 1 →
      exec (.feed k more) s = .next
        { s with bufs := s.bufs.set k.toNat []
                 responses := s.responses ++ [⟨0x00, .items [.err .bufferOverflow]⟩] })

/-- FEED's span loop ends before its fuel does. R344: every pass of the loop exits or removes at least one byte. The fuel is the model's choice (notes/assumptions/10.md). -/
def Obligations.SpanLoopNeverRunsOutOfFuel : Prop :=
  ∀ (form : CrcForm) (n : Nat) (buf : Bytes) (out : List Item), buf.length < n →
    spanLoop form n buf out = spanLoop form (buf.length + 1) buf out

/-- Every step keeps the buffer invariant. The buffer invariant, R278 item 1 and R35, which the spec derives. -/
def Obligations.StepKeepsTheBufferInvariant : Prop :=
  ∀ s t : State, Inv s → step s = .next t → Inv t

/-- The reset state of every legal configuration meets the buffer invariant. R278 item 1 at reset (R38). State.reset's own configuration is the model's choice (notes/assumptions/3.md). -/
def Obligations.ResetMeetsTheBufferInvariant : Prop :=
  (∀ c : Config, c.Legal → Inv (State.resetWith c)) ∧ Inv State.reset
end

