-- ==== Sys2Proof/Laws/Operands.lean ====
section
/-!
SUPPORT. One lemma per primitive: what `find` finds, what packing and unpacking give back, what `slice` cuts.
-/

namespace Sys2Proof.Machine

/-! ## find -/

theorem find_eq_none {b : Byte} {s : Bytes} {k : Nat} (h : b ∉ s.drop k) : find b s k = none := by
  simp only [find, Option.map_eq_none_iff, List.findIdx?_eq_none_iff, beq_eq_false_iff_ne]
  exact fun x hx e => h (e ▸ hx)

/-- `find` stops at the first `b` at or after index k. -/
theorem find_append {b : Byte} {pre post s : Bytes} {k : Nat} (hs : s.drop k = pre ++ b :: post) (h : b ∉ pre) :
    find b s k = some (k + pre.length) := by
  have hp : pre.findIdx? (fun x => x == b) = none := by
    simp only [List.findIdx?_eq_none_iff, beq_eq_false_iff_ne]
    exact fun x hx e => h (e ▸ hx)
  simp [find, hs, List.findIdx?_append, hp, List.findIdx?_cons]

/-! ## slice -/

@[simp] theorem slice_zero (s : Bytes) (j : Nat) : slice s 0 j = s.take j := by simp [slice]

/-- The bytes between a first and a last one. -/
theorem slice_inner (a b : Byte) (s : Bytes) :
    slice (a :: (s ++ [b])) 1 ((a :: (s ++ [b])).length - 1) = s := by
  simp [slice]

/-! ## Packing -/

@[simp] theorem length_be16 (v : BitVec 16) : (be16 v).length = 2 := rfl
@[simp] theorem length_le16 (v : BitVec 16) : (le16 v).length = 2 := rfl
@[simp] theorem length_be24 (v : BitVec 24) : (be24 v).length = 3 := rfl

/-- Two halves of a 16-bit word make it again. -/
theorem append_halves16 (v : BitVec 16) : v.extractLsb' 8 8 ++ v.extractLsb' 0 8 = v := by
  ext i hi
  simp only [BitVec.getElem_append, BitVec.getElem_extractLsb']
  split
  · simp [BitVec.getLsbD_eq_getElem, hi]
  · have : 8 + (i - 8) = i := by omega
    simp [this, BitVec.getLsbD_eq_getElem, hi]

/-- Three bytes of a 24-bit word make it again. -/
theorem append_thirds24 (v : BitVec 24) : v.extractLsb' 16 8 ++ v.extractLsb' 8 8 ++ v.extractLsb' 0 8 = v := by
  ext i hi
  simp only [BitVec.getElem_append, BitVec.getElem_extractLsb']
  split
  · simp [BitVec.getLsbD_eq_getElem, hi]
  · split
    · have : 8 + (i - 8) = i := by omega
      simp [this, BitVec.getLsbD_eq_getElem, hi]
    · have : 16 + (i - 8 - 8) = i := by omega
      simp [this, BitVec.getLsbD_eq_getElem, hi]

/-- Reading back what `be24` wrote. -/
theorem rdBe24_be24 (v : BitVec 24) (pre post : Bytes) : rdBe24 (pre ++ be24 v ++ post) pre.length = v := by
  simp [rdBe24, byteAt, be24, append_thirds24]

/-- Reading back what `be16` wrote. -/
theorem rdBe16_be16 (v : BitVec 16) (pre post : Bytes) : rdBe16 (pre ++ be16 v ++ post) pre.length = v := by
  simp [rdBe16, byteAt, be16, append_halves16]

/-- Reading back what `le16` wrote. -/
theorem rdLe16_le16 (v : BitVec 16) (pre post : Bytes) : rdLe16 (pre ++ le16 v ++ post) pre.length = v := by
  simp [rdLe16, byteAt, le16, append_halves16]

/-! ## clamp -/

theorem clampQ_eq (x lo hi : Q) (h : lo ≤ hi) : clampQ x lo hi = max lo (min x hi) := by
  unfold clampQ
  split
  · next hx => rw [min_eq_left (le_trans hx.le h), max_eq_left hx.le]
  · next hx =>
    split
    · next hx' => rw [min_eq_right hx'.le, max_eq_right h]
    · next hx' => rw [min_eq_left (not_lt.mp hx'), max_eq_right (not_lt.mp hx)]

theorem clampInt_eq (x lo hi : Int) (h : lo ≤ hi) : clampInt x lo hi = max lo (min x hi) := by
  unfold clampInt
  split
  · omega
  · split <;> omega

end Sys2Proof.Machine
end

