-- ==== Sys2Proof/Laws/Codec.lean ====
section
/-!
SUPPORT. The byte stuffer and the framer one unit at a time (41_framing.md), so that no later proof unfolds them.
-/

namespace Sys2Proof.Machine

/-! ## ESCAPE and UNESCAPE -/

/-- A special byte is stuffed as two. -/
theorem escape_cons_special {b : Byte} (h : b = 0x7E ∨ b = 0x7D) (data : Bytes) :
    escape (b :: data) = 0x7D :: (b ^^^ 0x20) :: escape data := by
  simp only [escape]
  rw [if_pos h]

/-- Any other byte is copied. -/
theorem escape_cons_plain {b : Byte} (h : ¬(b = 0x7E ∨ b = 0x7D)) (data : Bytes) : escape (b :: data) = b :: escape data := by
  simp only [escape]
  rw [if_neg h]

theorem escape_append (a b : Bytes) : escape (a ++ b) = escape a ++ escape b := by
  induction a with
  | nil => rfl
  | cons x t ih =>
    by_cases h : x = 0x7E ∨ x = 0x7D
    · rw [List.cons_append, escape_cons_special h, escape_cons_special h, ih]; rfl
    · rw [List.cons_append, escape_cons_plain h, escape_cons_plain h, ih]; rfl

/-- Stuffing never shortens. -/
theorem length_le_escape (data : Bytes) : data.length ≤ (escape data).length := by
  induction data with
  | nil => exact Nat.le_refl _
  | cons x t ih =>
    by_cases h : x = 0x7E ∨ x = 0x7D
    · rw [escape_cons_special h]; simp only [List.length_cons]; omega
    · rw [escape_cons_plain h]; simp only [List.length_cons]; omega

/-- A byte that is not 0x7D stands for itself, whatever follows. -/
theorem unescape_cons {b : Byte} (h : b ≠ 0x7D) (data : Bytes) : unescape (b :: data) = (unescape data).map (b :: ·) := by
  cases data with
  | nil => simp only [unescape]; rw [if_neg h]; rfl
  | cons x rest => simp only [unescape]; rw [if_neg h]

/-- 0x7D and the byte after it stand for one byte (R142). -/
theorem unescape_pair (x : Byte) (data : Bytes) :
    unescape (0x7D :: x :: data) = (unescape data).map ((x ^^^ 0x20) :: ·) := by
  simp only [unescape, if_true]

/-- UNESCAPE fails in one way only. -/
theorem unescape_error {data : Bytes} {e : ProtocolError} (h : unescape data = .error e) : e = .truncatedEscape := by
  induction data using unescape.induct with
  | case1 => simp [unescape] at h
  | case2 => simpa [unescape] using h.symm
  | case3 b hb =>
    simp only [unescape] at h
    rw [if_neg hb] at h
    cases h
  | case4 x rest ih =>
    rw [unescape_pair] at h
    cases hu : unescape rest with
    | ok v => rw [hu] at h; cases h
    | error e' => rw [hu] at h; cases h; exact ih hu
  | case5 b x rest hb ih =>
    rw [unescape_cons hb] at h
    cases hu : unescape (x :: rest) with
    | ok v => rw [hu] at h; cases h
    | error e' => rw [hu] at h; cases h; exact ih hu

/-! ## UNWRAP -/

/-- Check 1 of R144 fails: NotAFrame. -/
theorem unwrap_notFramed (form : CrcForm) {wire : Bytes} (h : isFramed wire = false) :
    unwrap form wire = .error .notAFrame := by
  simp only [unwrap]
  rw [if_neg (by simp [h])]

/-- Check 1 of R144 holds: the later checks are on the bytes between the delimiters. -/
theorem unwrap_framed (form : CrcForm) {inner : Bytes} (h : 2 ≤ inner.length) :
    unwrap form (0x7E :: (inner ++ [0x7E])) =
      match unescape inner with
      | .error e => .error e
      | .ok u =>
        if u.length ≤ 2 then .error .emptyPayload
        else if crc16 form (slice u 0 (u.length - 2)) ≠ rdLe16 u (u.length - 2) then .error .crcMismatch
        else .ok (slice u 0 (u.length - 2)) := by
  have hf : isFramed (0x7E :: (inner ++ [0x7E])) = true := by
    simp [isFramed, byteAt]; omega
  cases hu : unescape inner <;> simp only [unwrap, hf, if_true, slice_inner, hu]

/-- The same, with the payload and the received CRC bytes named. -/
theorem unwrap_body (form : CrcForm) {inner p : Bytes} {lo hi : Byte} (h : 2 ≤ inner.length) (hp : p ≠ [])
    (hu : unescape inner = .ok (p ++ [lo, hi])) :
    unwrap form (0x7E :: (inner ++ [0x7E])) =
      if crc16 form p = hi ++ lo then .ok p else .error .crcMismatch := by
  have hl : ¬ ((p ++ [lo, hi]).length ≤ 2) := by
    have := List.length_pos_iff.mpr hp
    simp; omega
  have hr : rdLe16 (p ++ [lo, hi]) ((p ++ [lo, hi]).length - 2) = hi ++ lo := by simp [rdLe16, byteAt]
  have hs : slice (p ++ [lo, hi]) 0 ((p ++ [lo, hi]).length - 2) = p := by simp
  rw [unwrap_framed form h, hu]
  simp only [if_neg hl, hr, hs, ne_eq, ite_not]

/-- The errors of UNWRAP (R144). -/
theorem unwrap_error {form : CrcForm} {wire : Bytes} {e : ProtocolError} (h : unwrap form wire = .error e) :
    e = .notAFrame ∨ e = .truncatedEscape ∨ e = .emptyPayload ∨ e = .crcMismatch := by
  simp only [unwrap] at h
  split at h
  · split at h
    · next e' he => cases h; exact .inr (.inl (unescape_error he))
    · split at h
      · cases h; exact .inr (.inr (.inl rfl))
      · split at h
        · cases h; exact .inr (.inr (.inr rfl))
        · cases h
  · cases h; exact .inl rfl

/-- UNWRAP never gives an empty payload (R145). -/
theorem unwrap_ne_nil {form : CrcForm} {wire p : Bytes} (h : unwrap form wire = .ok p) : p ≠ [] := by
  simp only [unwrap] at h
  split at h
  · split at h
    · cases h
    · next u _ =>
      split at h
      · cases h
      · next hu =>
        split at h
        · cases h
        · cases h
          intro e
          have := congrArg List.length e
          simp at this
          omega
  · cases h

/-! ## CRC16 -/

/-- CRC16 reads its bytes in order: the CRC of a string goes on from the CRC of a prefix (R122). -/
theorem crc16_append (form : CrcForm) (a b : Bytes) : crc16 form (a ++ b) = b.foldl (crcStep form) (crc16 form a) := by
  simp [crc16]

end Sys2Proof.Machine
end

