-- ==== Sys2Proof/Laws/Answer.lean ====
section
/-!
SUPPORT. `Answers` in terms of the function an operation computes.
-/

namespace Sys2Proof.Claims

open Sys2Proof.Machine

/-- An operation that gives one response answers exactly that response. -/
theorem answers_iff {s : State} {i : Instr} {status : Byte} {result : Result} {resp : Response}
    (h : exec i s = .next (s.respond resp)) : Answers s i status result ↔ resp = ⟨status, result⟩ := by
  simp [Answers, h, State.respond]

/-- An error's status is never OK (R301). -/
theorem statusOf_ne_ok (e : ProtocolError) : statusOf e ≠ 0x00 := by
  cases e <;> simp only [statusOf] <;> decide

/-- The response to an outcome has status 0x00 just when the outcome is a result. -/
theorem responseOf_ok_iff {x : Except ProtocolError Result} {result : Result} :
    responseOf x = ⟨0x00, result⟩ ↔ x = .ok result := by
  cases x with
  | ok r => simp [responseOf, okResponse]
  | error e =>
    simp only [responseOf, errResponse, Response.mk.injEq, reduceCtorEq, iff_false, not_and]
    exact fun h => absurd h (statusOf_ne_ok e)

/-- An operation that may raise answers OK just when it has a result. -/
theorem answers_ok_iff {s : State} {i : Instr} {x : Except ProtocolError Result} {result : Result}
    (h : exec i s = .next (s.answer x)) : Answers s i 0x00 result ↔ x = .ok result :=
  (answers_iff h).trans responseOf_ok_iff

/-- An operation that raises answers the error's status and information (R300). -/
theorem answers_of_error {s : State} {i : Instr} {x : Except ProtocolError Result} {e : ProtocolError}
    (h : exec i s = .next (s.answer x)) (he : x = .error e) : Answers s i (statusOf e) (infoOf e) :=
  (answers_iff h).mpr (by rw [he]; rfl)

/-- A bytes-valued outcome. -/
theorem map_bytes_eq_ok {x : Except ProtocolError Bytes} {b : Bytes} : x.map Result.bytes = .ok (.bytes b) ↔ x = .ok b := by
  cases x <;> simp [Except.map]

/-- A message-valued outcome. -/
theorem map_message_eq_ok {x : Except ProtocolError DecodedMessage} {m : DecodedMessage} :
    x.map Result.message = .ok (.message m) ↔ x = .ok m := by
  cases x <;> simp [Except.map]

end Sys2Proof.Claims
end

