-- ==== Sys2Proof/Laws/PerInstr.lean ====
section
/-!
SUPPORT. A statement about every instruction as syntax: the byte its encoding begins with is the one spec/opcode_table.json gives
its row.
-/

namespace Sys2Proof.Laws

namespace TableWord

/-- The byte the opcode table is looked up by: a request's op (R82), a payload's ID (R96). -/
def rowByte (e : Encoded) : Option Byte :=
  match e with
  | .request r => some r.op
  | .payload p => p.head?

/-- The "match" value of each row of spec/opcode_table.json. -/
def tableMatch (i : Instr) : Byte :=
  match i with
  | .crc16 _ => 0x01
  | .escape _ => 0x02
  | .unescape _ => 0x03
  | .wrap _ => 0x04
  | .unwrap _ => 0x05
  | .pack24 _ => 0x10
  | .unpack24 _ => 0x11
  | .encLat _ => 0x12
  | .encLon _ => 0x13
  | .decLatLon _ => 0x14
  | .encAlt _ => 0x15
  | .decAlt _ => 0x16
  | .encGs _ => 0x17
  | .decGs _ => 0x18
  | .encVs _ => 0x19
  | .decVs _ => 0x1A
  | .encTrk _ => 0x1B
  | .decTrk _ => 0x1C
  | .encCs _ => 0x1D
  | .decCs _ => 0x1E
  | .packNib _ _ => 0x1F
  | .unpackNib _ => 0x20
  | .msgEncHb _ => 0x30
  | .msgEncOwn _ => 0x31
  | .msgEncTraf _ => 0x32
  | .msgDec _ => 0x38
  | .encodeFrame _ => 0x40
  | .decodeFrame _ => 0x41
  | .feed _ _ => 0x50
  | .reasmReset _ => 0x51
  | .payloadHeartbeat _ => 0x00
  | .payloadOwnship _ => 0x0A
  | .payloadTraffic _ => 0x14

/-- A well-formed instruction's encoding is found under its row's "match" value. -/
def Statement (i : Instr) : Prop := wellFormed i = true → rowByte (encode i) = some (tableMatch i)

/-- A payload of the right form begins with its ID. -/
theorem head_of_isPayload {id : Byte} {need : Nat} {p : Bytes} (h : isPayload id need p = true) : p.head? = some id := by
  simp only [isPayload, Bool.and_eq_true, beq_iff_eq] at h
  exact h.1

theorem crc16 (data : Bytes) : Statement (.crc16 data) := fun _ => rfl
theorem escape (data : Bytes) : Statement (.escape data) := fun _ => rfl
theorem unescape (data : Bytes) : Statement (.unescape data) := fun _ => rfl
theorem wrap (payload : Bytes) : Statement (.wrap payload) := fun _ => rfl
theorem unwrap (wire : Bytes) : Statement (.unwrap wire) := fun _ => rfl
theorem pack24 (v : BitVec 32) : Statement (.pack24 v) := fun _ => rfl
theorem unpack24 (b : Vector Byte 3) : Statement (.unpack24 b) := fun _ => rfl
theorem encLat (deg : Q) : Statement (.encLat deg) := fun _ => rfl
theorem encLon (deg : Q) : Statement (.encLon deg) := fun _ => rfl
theorem decLatLon (raw : UInt24) : Statement (.decLatLon raw) := fun _ => rfl
theorem encAlt (ft : Option Q) : Statement (.encAlt ft) := fun _ => rfl
theorem decAlt (raw : UInt12) : Statement (.decAlt raw) := fun _ => rfl
theorem encGs (kt : Option (BitVec 16)) : Statement (.encGs kt) := fun _ => rfl
theorem decGs (raw : UInt12) : Statement (.decGs raw) := fun _ => rfl
theorem encVs (fpm : Option (BitVec 32)) : Statement (.encVs fpm) := fun _ => rfl
theorem decVs (raw : UInt12) : Statement (.decVs raw) := fun _ => rfl
theorem encTrk (deg : Q) : Statement (.encTrk deg) := fun _ => rfl
theorem decTrk (raw : Byte) : Statement (.decTrk raw) := fun _ => rfl
theorem encCs (cs : CallsignIn) : Statement (.encCs cs) := fun _ => rfl
theorem decCs (b : Vector Byte 8) : Statement (.decCs b) := fun _ => rfl
theorem packNib (hi lo : UInt4) : Statement (.packNib hi lo) := fun _ => rfl
theorem unpackNib (b : Byte) : Statement (.unpackNib b) := fun _ => rfl
theorem msgEncHb (m : Heartbeat) : Statement (.msgEncHb m) := fun _ => rfl
theorem msgEncOwn (m : OwnshipReport) : Statement (.msgEncOwn m) := fun _ => rfl
theorem msgEncTraf (m : TrafficReport) : Statement (.msgEncTraf m) := fun _ => rfl
theorem msgDec (payload : Bytes) : Statement (.msgDec payload) := fun _ => rfl
theorem encodeFrame (m : Message) : Statement (.encodeFrame m) := fun _ => rfl
theorem decodeFrame (wire : Bytes) : Statement (.decodeFrame wire) := fun _ => rfl
theorem feed (inst : Byte) (data : Bytes) : Statement (.feed inst data) := fun _ => rfl
theorem reasmReset (inst : Byte) : Statement (.reasmReset inst) := fun _ => rfl
theorem payloadHeartbeat (p : Bytes) : Statement (.payloadHeartbeat p) := fun h => head_of_isPayload h
theorem payloadOwnship (p : Bytes) : Statement (.payloadOwnship p) := fun h => head_of_isPayload h
theorem payloadTraffic (p : Bytes) : Statement (.payloadTraffic p) := fun h => head_of_isPayload h

end TableWord

end Sys2Proof.Laws
end

