-- ==== Sys2Proof/Laws/Scan.lean ====
section
/-!
SUPPORT. What one pass of FEED's span loop does, in its three cases (R271).
-/

namespace Sys2Proof.Machine

/-- No delimiter: every byte is discarded (R272). -/
theorem spanLoop_noise (form : CrcForm) (n : Nat) {buf : Bytes} (out : List Item) (h : 0x7E ∉ buf) :
    spanLoop form (n + 1) buf out = ⟨[], out⟩ := by
  have hf : find flagByte buf 0 = none := find_eq_none (by simpa [flagByte] using h)
  rw [spanLoop, hf]

/-- One delimiter: the bytes before it are discarded, the open span is kept (R271). -/
theorem spanLoop_open (form : CrcForm) (n : Nat) {pre post : Bytes} (out : List Item)
    (h : 0x7E ∉ pre) (h' : 0x7E ∉ post) :
    spanLoop form (n + 1) (pre ++ 0x7E :: post) out = ⟨0x7E :: post, out⟩ := by
  have hf : find flagByte (pre ++ 0x7E :: post) 0 = some pre.length := by
    have := find_append (b := 0x7E) (s := pre ++ 0x7E :: post) (k := 0) (post := post) rfl h
    simpa [flagByte] using this
  have hg : find flagByte (0x7E :: post) 1 = none := find_eq_none (by simpa [flagByte] using h')
  rw [spanLoop, hf]
  simp only [List.drop_left, hg]

/-- A closed span: its item, if it is not empty, and the loop goes on from its closing delimiter (R273, R274). -/
theorem spanLoop_closed (form : CrcForm) (n : Nat) {pre mid post : Bytes} (out : List Item)
    (h : 0x7E ∉ pre) (h' : 0x7E ∉ mid) :
    spanLoop form (n + 1) (pre ++ 0x7E :: (mid ++ 0x7E :: post)) out =
      spanLoop form n (0x7E :: post)
        (if mid = [] then out else out ++ [itemOf (decodeFrame form (0x7E :: (mid ++ [0x7E])))]) := by
  have hf : find flagByte (pre ++ 0x7E :: (mid ++ 0x7E :: post)) 0 = some pre.length := by
    have := find_append (b := 0x7E) (s := pre ++ 0x7E :: (mid ++ 0x7E :: post)) (k := 0) rfl h
    simpa [flagByte] using this
  have hg : find flagByte (0x7E :: (mid ++ 0x7E :: post)) 1 = some (1 + mid.length) := by
    have := find_append (b := 0x7E) (s := 0x7E :: (mid ++ 0x7E :: post)) (k := 1) rfl h'
    simpa [flagByte] using this
  rw [spanLoop, hf]
  simp only [List.drop_left, hg, slice_zero]
  have e1 : List.drop (1 + mid.length) (0x7E :: (mid ++ 0x7E :: post)) = 0x7E :: post := by
    rw [Nat.add_comm, List.drop_succ_cons, List.drop_left]
  have e2 : List.take (1 + mid.length + 1) ((0x7E : Byte) :: (mid ++ 0x7E :: post)) = 0x7E :: (mid ++ [0x7E]) := by
    rw [show 1 + mid.length + 1 = (mid.length + 1) + 1 from by omega, List.take_succ_cons, List.take_length_add_append]
    rfl
  rw [e1, e2]
  by_cases hm : mid = [] <;> simp [hm]

end Sys2Proof.Machine
end

