-- ==== Sys2Proof/Laws/State.lean ====
section
/-!
SUPPORT. One lemma per field per update of the state, and the laws of reading and writing a buffer.
-/

namespace Sys2Proof.Machine

variable (s : State)

/-! ## Fields after an update -/

@[simp] theorem State.respond_cfg (r : Response) : (s.respond r).cfg = s.cfg := rfl
@[simp] theorem State.respond_bufs (r : Response) : (s.respond r).bufs = s.bufs := rfl
@[simp] theorem State.respond_pending (r : Response) : (s.respond r).pending = s.pending := rfl
@[simp] theorem State.respond_responses (r : Response) : (s.respond r).responses = s.responses ++ [r] := rfl

@[simp] theorem State.raise_cfg (e : ProtocolError) : (s.raise e).cfg = s.cfg := rfl
@[simp] theorem State.raise_bufs (e : ProtocolError) : (s.raise e).bufs = s.bufs := rfl
@[simp] theorem State.raise_pending (e : ProtocolError) : (s.raise e).pending = s.pending := rfl
@[simp] theorem State.raise_responses (e : ProtocolError) : (s.raise e).responses = s.responses ++ [errResponse e] := rfl

@[simp] theorem State.answer_cfg (x : Except ProtocolError Result) : (s.answer x).cfg = s.cfg := rfl
@[simp] theorem State.answer_bufs (x : Except ProtocolError Result) : (s.answer x).bufs = s.bufs := rfl
@[simp] theorem State.answer_pending (x : Except ProtocolError Result) : (s.answer x).pending = s.pending := rfl
@[simp] theorem State.answer_responses (x : Except ProtocolError Result) : (s.answer x).responses = s.responses ++ [responseOf x] := rfl

@[simp] theorem State.complete_cfg (r : Result) : (s.complete r).cfg = s.cfg := rfl
@[simp] theorem State.complete_bufs (r : Result) : (s.complete r).bufs = s.bufs := rfl
@[simp] theorem State.complete_pending (r : Result) : (s.complete r).pending = s.pending := rfl
@[simp] theorem State.complete_responses (r : Result) : (s.complete r).responses = s.responses ++ [okResponse r] := rfl

@[simp] theorem State.setBuf_cfg (k : Nat) (b : Bytes) : (s.setBuf k b).cfg = s.cfg := rfl
@[simp] theorem State.setBuf_bufs (k : Nat) (b : Bytes) : (s.setBuf k b).bufs = s.bufs.set k b := rfl
@[simp] theorem State.setBuf_pending (k : Nat) (b : Bytes) : (s.setBuf k b).pending = s.pending := rfl
@[simp] theorem State.setBuf_responses (k : Nat) (b : Bytes) : (s.setBuf k b).responses = s.responses := rfl

@[simp] theorem State.applyReset_cfg : s.applyReset.cfg = s.cfg := rfl
@[simp] theorem State.applyReset_bufs : s.applyReset.bufs = List.replicate s.cfg.reasmInstances [] := rfl
@[simp] theorem State.applyReset_pending : s.applyReset.pending = s.pending := rfl
@[simp] theorem State.applyReset_responses : s.applyReset.responses = s.responses := rfl

@[simp] theorem State.takeMove_cfg : s.takeMove.cfg = s.cfg := rfl
@[simp] theorem State.takeMove_bufs : s.takeMove.bufs = s.bufs := rfl
@[simp] theorem State.takeMove_pending : s.takeMove.pending = s.pending.drop 1 := rfl
@[simp] theorem State.takeMove_responses : s.takeMove.responses = s.responses := rfl

@[simp] theorem State.putMove_cfg (m : HostMove) : (s.putMove m).cfg = s.cfg := rfl
@[simp] theorem State.putMove_bufs (m : HostMove) : (s.putMove m).bufs = s.bufs := rfl
@[simp] theorem State.putMove_pending (m : HostMove) : (s.putMove m).pending = m :: s.pending := rfl
@[simp] theorem State.putMove_responses (m : HostMove) : (s.putMove m).responses = s.responses := rfl

/-! ## Buffers -/

@[simp] theorem State.buf_respond (r : Response) (j : Nat) : (s.respond r).buf j = s.buf j := rfl

@[simp] theorem State.buf_raise (e : ProtocolError) (j : Nat) : (s.raise e).buf j = s.buf j := rfl

@[simp] theorem State.buf_answer (x : Except ProtocolError Result) (j : Nat) : (s.answer x).buf j = s.buf j := rfl

@[simp] theorem State.buf_complete (r : Result) (j : Nat) : (s.complete r).buf j = s.buf j := rfl

@[simp] theorem State.buf_takeMove (j : Nat) : s.takeMove.buf j = s.buf j := rfl

@[simp] theorem State.buf_putMove (m : HostMove) (j : Nat) : (s.putMove m).buf j = s.buf j := rfl

/-- A buffer that exists reads as what was written to it. -/
theorem State.buf_setBuf_self {k : Nat} (b : Bytes) (h : k < s.bufs.length) : (s.setBuf k b).buf k = b := by
  simp [State.buf, h]

/-- Writing one buffer leaves every other one as it was (R36). -/
theorem State.buf_setBuf_of_ne {k j : Nat} (b : Bytes) (h : j ≠ k) : (s.setBuf k b).buf j = s.buf j := by
  simp [State.buf, List.getElem?_set_ne (Ne.symm h)]

/-- After reset every buffer is empty (R340). -/
@[simp] theorem State.buf_applyReset (j : Nat) : s.applyReset.buf j = [] := by
  simp only [State.buf, State.applyReset_bufs, List.getD_eq_getElem?_getD, List.getElem?_replicate]
  split <;> rfl

@[simp] theorem State.buf_resetWith (c : Config) (j : Nat) : (State.resetWith c).buf j = [] := by
  simp only [State.buf, State.resetWith, List.getD_eq_getElem?_getD, List.getElem?_replicate]
  split <;> rfl

theorem State.hasInstance_iff (k : Byte) : s.hasInstance k = true ↔ k.toNat < s.cfg.reasmInstances := by
  simp [State.hasInstance]

/-- `Buf[k]` of an instance that exists is one of the buffers. -/
theorem State.buf_mem {k : Nat} (h : k < s.bufs.length) : s.buf k ∈ s.bufs := by
  simp [State.buf, h]

/-! ## The request index -/

@[simp] theorem State.requestIndex_respond (r : Response) : (s.respond r).requestIndex = s.requestIndex + 1 := by
  simp [State.requestIndex]

end Sys2Proof.Machine
end

