-- ==== Sys2Proof/Laws/Step.lean ====
section
/-!
SUPPORT. What a step and an instruction can do, said once: a step is one of four things, an instruction gives one response and
writes at most the buffer it names.
-/

namespace Sys2Proof.Machine

open Sys2Proof.Claims

/-! ## FEED and REASM_RESET -/

theorem execFeed_inRange {s : State} {k : Byte} (data : Bytes) (h : k.toNat < s.cfg.reasmInstances) :
    execFeed k data s = .next ((s.setBuf k.toNat (feedBuffer s.cfg (s.buf k.toNat) data).buf).complete
      (.items (feedBuffer s.cfg (s.buf k.toNat) data).out)) := by
  simp [execFeed, State.hasInstance, h]

theorem execFeed_outOfRange {s : State} {k : Byte} (data : Bytes) (h : s.cfg.reasmInstances ≤ k.toNat) :
    execFeed k data s = .next (s.raise .illegalCommand) := by
  simp [execFeed, State.hasInstance, Nat.not_lt.mpr h]

theorem execReasmReset_inRange {s : State} {k : Byte} (h : k.toNat < s.cfg.reasmInstances) :
    execReasmReset k s = .next ((s.setBuf k.toNat []).complete .unit) := by
  simp [execReasmReset, State.hasInstance, h]

theorem execReasmReset_outOfRange {s : State} {k : Byte} (h : s.cfg.reasmInstances ≤ k.toNat) :
    execReasmReset k s = .next (s.raise .illegalCommand) := by
  simp [execReasmReset, State.hasInstance, Nat.not_lt.mpr h]

/-! ## Every instruction -/

/-- An instruction always completes: with one response and no buffer written, or with one response and the buffer it
names written, to `[]` or to what FEED leaves. -/
theorem exec_cases (i : Instr) (s : State) :
    (∃ r, exec i s = .next (s.respond r)) ∨
    (∃ k data, i = .feed k data ∧ k.toNat < s.cfg.reasmInstances ∧
      exec i s = .next ((s.setBuf k.toNat (feedBuffer s.cfg (s.buf k.toNat) data).buf).complete
        (.items (feedBuffer s.cfg (s.buf k.toNat) data).out))) ∨
    (∃ k, i = .reasmReset k ∧ k.toNat < s.cfg.reasmInstances ∧
      exec i s = .next ((s.setBuf k.toNat []).complete .unit)) := by
  cases i
  case feed k data =>
    rcases Nat.lt_or_ge k.toNat s.cfg.reasmInstances with h | h
    · exact .inr (.inl ⟨k, data, rfl, h, execFeed_inRange data h⟩)
    · exact .inl ⟨_, execFeed_outOfRange data h⟩
  case reasmReset k =>
    rcases Nat.lt_or_ge k.toNat s.cfg.reasmInstances with h | h
    · exact .inr (.inr ⟨k, rfl, h, execReasmReset_inRange h⟩)
    · exact .inl ⟨_, execReasmReset_outOfRange h⟩
  all_goals exact .inl ⟨_, rfl⟩

/-! ## A step -/

theorem step_idle {s : State} (h : s.pending = []) : step s = .next s := by
  simp [step, takeStep, h]

theorem step_move {s : State} {m : HostMove} {rest : List HostMove} (h : s.pending = m :: rest) :
    step s = takeHostMove m { s with pending := rest } := by
  simp [step, takeStep, h, State.takeMove]

/-- What a step that answers a next state can have done. -/
theorem step_cases {s t : State} (h : step s = .next t) :
    (s.pending = [] ∧ t = s) ∨
    (∃ rest, s.pending = .reset :: rest ∧ t = { s with pending := rest }.applyReset) ∨
    (∃ r rest, s.pending = .request r :: rest ∧
      ((∃ i, decodeRequest r = .ok i ∧ exec i { s with pending := rest } = .next t) ∨
        (∃ e, t = { s with pending := rest }.raise e))) := by
  cases hp : s.pending with
  | nil => rw [step_idle hp] at h; exact .inl ⟨rfl, by injection h with h; exact h.symm⟩
  | cons m rest =>
    rw [step_move hp] at h
    cases m with
    | reset =>
      simp only [takeHostMove] at h
      injection h with h
      exact .inr (.inl ⟨rest, rfl, h.symm⟩)
    | request r =>
      refine .inr (.inr ⟨r, rest, rfl, ?_⟩)
      simp only [takeHostMove, takeRequest] at h
      split at h
      · exact .inl ⟨_, ‹_›, h⟩
      · injection h with h; exact .inr ⟨_, h.symm⟩
      · cases h
      · injection h with h; exact .inr ⟨_, h.symm⟩

end Sys2Proof.Machine
end

