-- ==== Sys2Proof/Tests/Slice0.lean ====
section
/-!
SUPPORT. The model's own tests. Expected results are spec/95_test_vectors.md's (the section stands in each docstring) or written
out by hand from the encoding tables of spec/30_encoding.md. At the end, for every statement with hypotheses, a concrete state and
operands that meet them.
-/

open Sys2Proof Sys2Proof.Machine Sys2Proof.Claims

namespace Sys2Proof.Tests

-- One theorem after another: the package is compiled as one text, and a hundred evaluations at once exhaust its threads.
set_option Elab.async false

/-! ## Small states and observations -/

/-- Reset, at 95_test_vectors.md's parameters. -/
def fresh : State := State.reset

/-- Reset, under the other CRC form and the other tie rule. -/
def other : State := State.resetWith ⟨.xmodem, .halfAway, 64, 2⟩

/-- Reset, with `b` in `Buf[0]` and `[7E]` in `Buf[1]`. -/
def holding (b : Bytes) : State := { fresh with bufs := [b, [0x7E]] }

/-- Reset, with one request the host has not yet made. -/
def asking (r : Request) : State := { fresh with pending := [.request r] }

/-- The response a step gave last. -/
def reply (x : Host.Outcome State Fault Refusal) : Option Response :=
  match x with
  | .next t => t.responses.getLast?
  | .fault _ => none
  | .refused _ => none

/-- The buffers after a step. -/
def buffers (x : Host.Outcome State Fault Refusal) : Option (List Bytes) :=
  match x with
  | .next t => some t.bufs
  | .fault _ => none
  | .refused _ => none

/-- Why a step was refused. -/
def refusal (x : Host.Outcome State Fault Refusal) : Option Refusal :=
  match x with
  | .next _ => none
  | .fault _ => none
  | .refused e => some e

/-- What a request decodes to. -/
def read (op inst : Byte) (a : Args) : Option Instr := (decodeRequest ⟨op, inst, a⟩).toOption

/-- The frame f1 (section 2.2). -/
def f1 : Bytes := [0x7E, 0x00, 0x81, 0x41, 0xDB, 0xD0, 0x08, 0x02, 0xB3, 0x8B, 0x7E]

/-- The frame f2 (section 2.2). -/
def f2 : Bytes := [0x7E, 0x00, 0x00, 0x80, 0x7F, 0x51, 0x00, 0x00, 0xE9, 0x69, 0x7E]

/-- The decoded heartbeat H1 (section 2.4). -/
def h1 : DecodedMessage := .hb ⟨0x81, 0x41, 53467, 0x0802⟩

/-- The decoded heartbeat H2 (section 2.4). -/
def h2 : DecodedMessage := .hb ⟨0x00, 0x00, 86399, 0x0000⟩

/-- The Ownship Report O1 (section 1.6). -/
def o1 : OwnshipReport :=
  ⟨0xABCDEF, ⟨47.6062, -122.3321, some 2500, 9⟩, ⟨some 150, some 500, 270⟩, 10, 9, 1, [0x4E, 0x31, 0x32, 0x33, 0x34, 0x35], 0⟩

/-- O1's payload. -/
def o1Payload : Bytes :=
  [0x0A, 0x00, 0xAB, 0xCD, 0xEF, 0x21, 0xDA, 0x72, 0xA9, 0x02, 0x1F, 0x08, 0xC9, 0xA9] ++
  [0x09, 0x60, 0x08, 0xC0, 0x01, 0x4E, 0x31, 0x32, 0x33, 0x34, 0x35, 0x20, 0x20, 0x00]

/-- O1 as it is decoded. -/
def o1Decoded : DecodedMessage :=
  .own ⟨0xABCDEF, ⟨49918725 / 1048576, -256549005 / 2097152, some 2500, 9⟩, ⟨some 150, some 512, 270⟩, 10, 9, 1,
    [.ascii 0x4E, .ascii 0x31, .ascii 0x32, .ascii 0x33, .ascii 0x34, .ascii 0x35], 0⟩

/-- The Ownship Report O2, saturating on every field (section 2.4). -/
def o2 : OwnshipReport :=
  ⟨0xFFFFFF, ⟨100, 200, some 200000, 15⟩, ⟨some 65535, some 100000, 359.9⟩, 15, 15, 0xFF, [0x41, 0x42, 0x43, 0x44, 0x45, 0x46, 0x47, 0x48, 0x49, 0x4A], 15⟩

/-- The Traffic Report T1 (section 1.7 a). -/
def t1 : TrafficReport :=
  ⟨false, 0, 0xAB4549, ⟨44.90708, -122.99488, some 5000, 9⟩, ⟨some 123, some 64, 45⟩, 10, 9, 1, [0x4E, 0x38, 0x32, 0x35, 0x56], 0⟩

/-- T1's payload. -/
def t1Payload : Bytes :=
  [0x14, 0x00, 0xAB, 0x45, 0x49, 0x1F, 0xEF, 0x16, 0xA8, 0x89, 0x77, 0x0F, 0x09, 0xA9] ++
  [0x07, 0xB0, 0x01, 0x20, 0x01, 0x4E, 0x38, 0x32, 0x35, 0x56, 0x20, 0x20, 0x20, 0x00]

/-- The Traffic Report T2, with everything absent (section 2.4). -/
def t2 : TrafficReport := ⟨true, 7, 0x000001, ⟨-90, -180, none, 0⟩, ⟨none, none, 0⟩, 0, 0, 0, [], 15⟩

/-- T2's payload. -/
def t2Payload : Bytes :=
  [0x14, 0x17, 0x00, 0x00, 0x01, 0xC0, 0x00, 0x00, 0x80, 0x00, 0x00, 0xFF, 0xF0, 0x00] ++
  [0xFF, 0xF8, 0x00, 0x00, 0x00, 0x20, 0x20, 0x20, 0x20, 0x20, 0x20, 0x20, 0x20, 0xF0]

/-! ## Well-formedness: what the check refuses -/

theorem test_heartbeat_payload_needs_its_id : wellFormed (.payloadHeartbeat [0x0A, 0, 0, 0, 0, 0, 0]) = false := by decide +kernel

theorem test_heartbeat_payload_needs_7_bytes :
    wellFormed (.payloadHeartbeat [0x00, 0, 0, 0, 0, 0]) = false ∧ wellFormed (.payloadHeartbeat [0x00, 0, 0, 0, 0, 0, 0]) = true := by decide +kernel

theorem test_ownship_payload_needs_its_id : wellFormed (.payloadOwnship (0x14 :: List.replicate 27 0)) = false := by decide +kernel

theorem test_ownship_payload_needs_28_bytes :
    wellFormed (.payloadOwnship (0x0A :: List.replicate 26 0)) = false ∧ wellFormed (.payloadOwnship (0x0A :: List.replicate 27 0)) = true := by decide +kernel

theorem test_traffic_payload_needs_its_id : wellFormed (.payloadTraffic (0x0A :: List.replicate 27 0)) = false := by decide +kernel

theorem test_traffic_payload_needs_28_bytes :
    wellFormed (.payloadTraffic (0x14 :: List.replicate 26 0)) = false ∧ wellFormed (.payloadTraffic (0x14 :: List.replicate 27 0)) = true := by decide +kernel

/-! ## Decoding: one written-out request or payload for every constructor (R82, R96) -/

theorem test_decode_crc16 : read 0x01 0x07 (.bytes [0x01]) = some (.crc16 [0x01]) := by decide +kernel

theorem test_decode_escape : read 0x02 0x00 (.bytes [0x7E]) = some (.escape [0x7E]) := by decide +kernel

theorem test_decode_unescape : read 0x03 0x00 (.bytes [0x7D, 0x5E]) = some (.unescape [0x7D, 0x5E]) := by decide +kernel

theorem test_decode_wrap : read 0x04 0x00 (.bytes [0x01]) = some (.wrap [0x01]) := by decide +kernel

theorem test_decode_unwrap : read 0x05 0x00 (.bytes [0x7E, 0x7E]) = some (.unwrap [0x7E, 0x7E]) := by decide +kernel

theorem test_decode_pack24 : read 0x10 0x00 (.u32 0xAB4549) = some (.pack24 0xAB4549) := by decide +kernel

theorem test_decode_unpack24 :
    read 0x11 0x00 (.bytes3 #v[0xAB, 0x45, 0x49]) = some (.unpack24 #v[0xAB, 0x45, 0x49]) := by decide +kernel

theorem test_decode_encLat : read 0x12 0x00 (.rational 47.6062) = some (.encLat 47.6062) := by decide +kernel

theorem test_decode_encLon : read 0x13 0x00 (.rational (-122.3321)) = some (.encLon (-122.3321)) := by decide +kernel

theorem test_decode_decLatLon : read 0x14 0x00 (.u24 0x21DA72) = some (.decLatLon 0x21DA72) := by decide +kernel

theorem test_decode_encAlt : read 0x15 0x00 (.optRational (some 2500)) = some (.encAlt (some 2500)) := by decide +kernel

theorem test_decode_decAlt : read 0x16 0x00 (.u12 0x0F0) = some (.decAlt 0x0F0) := by decide +kernel

theorem test_decode_encGs : read 0x17 0x00 (.optU16 (some 150)) = some (.encGs (some 150)) := by decide +kernel

theorem test_decode_decGs : read 0x18 0x00 (.u12 0x07B) = some (.decGs 0x07B) := by decide +kernel

theorem test_decode_encVs : read 0x19 0x00 (.optS32 (some 500)) = some (.encVs (some 500)) := by decide +kernel

theorem test_decode_decVs : read 0x1A 0x00 (.u12 0x001) = some (.decVs 0x001) := by decide +kernel

theorem test_decode_encTrk : read 0x1B 0x00 (.rational 45) = some (.encTrk 45) := by decide +kernel

theorem test_decode_decTrk : read 0x1C 0x00 (.u8 0xC0) = some (.decTrk 0xC0) := by decide +kernel

theorem test_decode_encCs : read 0x1D 0x00 (.callsign [0x4E, 0x31]) = some (.encCs [0x4E, 0x31]) := by decide +kernel

theorem test_decode_decCs :
    read 0x1E 0x00 (.bytes8 #v[0x4E, 0x38, 0x32, 0x35, 0x56, 0x20, 0x20, 0x20]) = some (.decCs #v[0x4E, 0x38, 0x32, 0x35, 0x56, 0x20, 0x20, 0x20]) := by decide +kernel

theorem test_decode_packNib : read 0x1F 0x00 (.nibbles 10 9) = some (.packNib 10 9) := by decide +kernel

theorem test_decode_unpackNib : read 0x20 0x00 (.u8 0xA9) = some (.unpackNib 0xA9) := by decide +kernel

theorem test_decode_msgEncHb :
    read 0x30 0x00 (.heartbeat ⟨0x81, 0x41, 53467, 0x0802⟩) = some (.msgEncHb ⟨0x81, 0x41, 53467, 0x0802⟩) := by decide +kernel

theorem test_decode_msgEncOwn : read 0x31 0x00 (.ownship o1) = some (.msgEncOwn o1) := by decide +kernel

theorem test_decode_msgEncTraf : read 0x32 0x00 (.traffic t1) = some (.msgEncTraf t1) := by decide +kernel

theorem test_decode_msgDec : read 0x38 0x00 (.bytes [0xFF]) = some (.msgDec [0xFF]) := by decide +kernel

theorem test_decode_encodeFrame : read 0x40 0x00 (.message (.traf t1)) = some (.encodeFrame (.traf t1)) := by decide +kernel

theorem test_decode_decodeFrame : read 0x41 0x00 (.bytes f1) = some (.decodeFrame f1) := by decide +kernel

theorem test_decode_feed : read 0x50 0x01 (.bytes [0x7E]) = some (.feed 0x01 [0x7E]) := by decide +kernel

theorem test_decode_reasmReset : read 0x51 0x05 (.none) = some (.reasmReset 0x05) := by decide +kernel

theorem test_decode_payloadHeartbeat :
    (decodePayload [0x00, 0x81, 0x41, 0xDB, 0xD0, 0x08, 0x02]).toOption =
      some (.payloadHeartbeat [0x00, 0x81, 0x41, 0xDB, 0xD0, 0x08, 0x02]) := by decide +kernel

theorem test_decode_payloadOwnship : (decodePayload o1Payload).toOption = some (.payloadOwnship o1Payload) := by decide +kernel

theorem test_decode_payloadTraffic : (decodePayload t1Payload).toOption = some (.payloadTraffic t1Payload) := by decide +kernel

/-- The unassigned ops of section 2.6. -/
theorem test_decode_rejects_unassigned_ops :
    ∀ op ∈ [0x00, 0x06, 0x21, 0x33, 0x42, 0x52, 0xFF], ∀ a ∈ [Args.none, .bytes [0x01]],
      decodeRequest ⟨op, 0x00, a⟩ = .error (.unassignedOp op) := by decide +kernel

theorem test_decode_rejects_a_record_of_another_type :
    decodeRequest ⟨0x10, 0x00, .bytes [0x01]⟩ = .error (.operandRecord 0x10) := by decide +kernel

theorem test_decode_rejects_payloads :
    decodePayload [] = .error (.payload .truncated) ∧ decodePayload [0x0A] = .error (.payload .truncated) ∧
      decodePayload [0xFF] = .error (.payload (.unknownKind 0xFF [0xFF])) := by decide +kernel

/-! ## One step of each instruction -/

/-- Section 2.1. -/
theorem test_crc16_icd :
    reply (exec (.crc16 [0x12, 0x34, 0x56]) fresh) =
      some (okResponse (.u16 0x0625)) := by decide +kernel

/-- Section 2.1. -/
theorem test_crc16_xmodem :
    reply (exec (.crc16 [0x31, 0x32, 0x33, 0x34, 0x35, 0x36, 0x37, 0x38, 0x39]) other) =
      some (okResponse (.u16 0x31C3)) := by decide +kernel

/-- Section 1.3. -/
theorem test_escape_runs :
    reply (exec (.escape [0x7E, 0x7E, 0x7D]) fresh) =
      some (okResponse (.bytes [0x7D, 0x5E, 0x7D, 0x5E, 0x7D, 0x5D])) := by decide +kernel

/-- Section 2.2. -/
theorem test_unescape_accepts_any_escaped_byte :
    reply (exec (.unescape [0x7D, 0x7D, 0x7D, 0x41]) fresh) =
      some (okResponse (.bytes [0x5D, 0x61])) := by decide +kernel

/-- Section 2.2. -/
theorem test_unescape_unmatched_escape :
    reply (exec (.unescape [0x7D, 0x5E, 0x7D]) fresh) =
      some (errResponse .truncatedEscape) := by decide +kernel

/-- Section 2.2. -/
theorem test_wrap_escapes_the_crc :
    reply (exec (.wrap [0x14, 0x2F, 0xCB]) fresh) =
      some (okResponse (.bytes [0x7E, 0x14, 0x2F, 0xCB, 0x7D, 0x5E, 0x7D, 0x5D, 0x7E])) := by decide +kernel

/-- Section 2.2. -/
theorem test_wrap_empty :
    reply (exec (.wrap []) fresh) =
      some (okResponse (.bytes [0x7E, 0x00, 0x00, 0x7E])) := by decide +kernel

/-- Section 2.2. -/
theorem test_unwrap_raw_delimiter_is_data :
    reply (exec (.unwrap [0x7E, 0x12, 0x7E, 0x7E, 0x12, 0x7E]) fresh) =
      some (okResponse (.bytes [0x12, 0x7E])) := by decide +kernel

/-- Section 2.2, in the order of the checks. -/
theorem test_unwrap_errors :
    [[0x7E, 0x00, 0x7E], [0x7E, 0x00, 0x7D, 0x7E], [0x7E, 0x00, 0x00, 0x7E],
        [0x7E, 0x00, 0x80, 0x41, 0xDB, 0xD0, 0x08, 0x02, 0xB3, 0x8B, 0x7E]].map (fun w => reply (exec (.unwrap w) fresh)) =
      [.notAFrame, .truncatedEscape, .emptyPayload, .crcMismatch].map (fun e => some (errResponse e)) := by decide +kernel

/-- Section 2.3. -/
theorem test_pack24_largest :
    reply (exec (.pack24 0xFFFFFF) fresh) =
      some (okResponse (.bytes [0xFF, 0xFF, 0xFF])) := by decide +kernel

/-- Section 2.3. -/
theorem test_pack24_too_large :
    reply (exec (.pack24 0x1000000) fresh) =
      some (errResponse .invalidAddress) := by decide +kernel

/-- Section 2.3. -/
theorem test_unpack24 :
    reply (exec (.unpack24 #v[0xAB, 0x45, 0x49]) fresh) =
      some (okResponse (.u24 0xAB4549)) := by decide +kernel

/-- Section 2.3. -/
theorem test_encLat_example :
    reply (exec (.encLat 47.6062) fresh) =
      some (okResponse (.u24 0x21DA72)) := by decide +kernel

/-- Section 2.3: a tie, away from zero. -/
theorem test_encLat_tie :
    reply (exec (.encLat (-45 / 4194304)) other) =
      some (okResponse (.u24 0xFFFFFF)) := by decide +kernel

/-- Section 2.3. -/
theorem test_encLon_example :
    reply (exec (.encLon (-122.3321)) fresh) =
      some (okResponse (.u24 0xA9021F)) := by decide +kernel

/-- Section 2.3: 180 − 90/2^23. -/
theorem test_encLon_near_180 :
    reply (exec (.encLon (754974675 / 4194304)) fresh) =
      some (okResponse (.u24 0x800000)) := by decide +kernel

/-- Section 2.3. -/
theorem test_decLatLon_example :
    reply (exec (.decLatLon 0x21DA72) fresh) =
      some (okResponse (.rational (49918725 / 1048576))) := by decide +kernel

/-- Section 2.3. -/
theorem test_decLatLon_sign :
    reply (exec (.decLatLon 0x800000) fresh) =
      some (okResponse (.rational (-180))) := by decide +kernel

/-- Section 2.3: −1, then clamped. -/
theorem test_encAlt_tie_then_clamp :
    reply (exec (.encAlt (some (-1012.5))) other) =
      some (okResponse (.u12 0x000)) := by decide +kernel

/-- Section 2.3. -/
theorem test_encAlt_never_the_sentinel :
    reply (exec (.encAlt (some 101363)) fresh) =
      some (okResponse (.u12 0xFFE)) := by decide +kernel

/-- Section 2.3. -/
theorem test_decAlt_largest :
    reply (exec (.decAlt 0xFFE) fresh) =
      some (okResponse (.optInt (some 101350))) := by decide +kernel

/-- Section 1.4. -/
theorem test_decAlt_no_data :
    reply (exec (.decAlt 0xFFF) fresh) =
      some (okResponse (.optInt none)) := by decide +kernel

/-- Section 2.3. -/
theorem test_encGs_clamps :
    reply (exec (.encGs (some 4095)) fresh) =
      some (okResponse (.u12 0xFFE)) := by decide +kernel

/-- Section 1.4. -/
theorem test_encGs_no_data :
    reply (exec (.encGs none) fresh) =
      some (okResponse (.u12 0xFFF)) := by decide +kernel

/-- Section 1.4. -/
theorem test_decGs_zero :
    reply (exec (.decGs 0x000) fresh) =
      some (okResponse (.optU12 (some 0))) := by decide +kernel

/-- Section 1.4. -/
theorem test_decGs_no_data :
    reply (exec (.decGs 0xFFF) fresh) =
      some (okResponse (.optU12 none)) := by decide +kernel

/-- Section 2.3. -/
theorem test_encVs_most_negative :
    reply (exec (.encVs (some (BitVec.ofInt 32 (-2147483648)))) fresh) =
      some (okResponse (.u12 0xE03)) := by decide +kernel

/-- Section 2.3: a tie, away from zero. -/
theorem test_encVs_tie :
    reply (exec (.encVs (some (BitVec.ofInt 32 (-32)))) other) =
      some (okResponse (.u12 0xFFF)) := by decide +kernel

/-- Section 2.3: a code the encoder never produces. -/
theorem test_decVs_literal :
    reply (exec (.decVs 0x801) fresh) =
      some (okResponse (.optInt (some (-131008)))) := by decide +kernel

/-- Section 1.4. -/
theorem test_decVs_no_data :
    reply (exec (.decVs 0x800) fresh) =
      some (okResponse (.optInt none)) := by decide +kernel

/-- Section 2.3. -/
theorem test_encTrk_wraps :
    reply (exec (.encTrk 359.9) fresh) =
      some (okResponse (.byte 0x00)) := by decide +kernel

/-- Section 2.3. -/
theorem test_encTrk_negative :
    reply (exec (.encTrk (-45)) fresh) =
      some (okResponse (.byte 0xE0)) := by decide +kernel

/-- Section 2.3. -/
theorem test_decTrk_largest :
    reply (exec (.decTrk 0xFF) fresh) =
      some (okResponse (.rational (11475 / 32))) := by decide +kernel

/-- Section 2.3. -/
theorem test_encCs_truncates :
    reply (exec (.encCs [0x41, 0x42, 0x43, 0x44, 0x45, 0x46, 0x47, 0x48, 0x49, 0x4A]) fresh) =
      some (okResponse (.bytes [0x41, 0x42, 0x43, 0x44, 0x45, 0x46, 0x47, 0x48])) := by decide +kernel

/-- Section 2.3. -/
theorem test_encCs_pads :
    reply (exec (.encCs [0x4E, 0x20, 0x31]) fresh) =
      some (okResponse (.bytes [0x4E, 0x20, 0x31, 0x20, 0x20, 0x20, 0x20, 0x20])) := by decide +kernel

/-- Section 2.3. -/
theorem test_decCs_strips_only_the_end :
    reply (exec (.decCs #v[0x41, 0xC3, 0x20, 0x00, 0x20, 0x20, 0x20, 0x20]) fresh) =
      some (okResponse (.callsign [.ascii 0x41, .replacement, .ascii 0x20, .ascii 0x00])) := by decide +kernel

/-- Section 2.3. -/
theorem test_decCs_keeps_spaces_before_the_marker :
    reply (exec (.decCs #v[0x41, 0x20, 0x20, 0x20, 0x20, 0x20, 0x20, 0xFF]) fresh) =
      some (okResponse (.callsign ([.ascii 0x41] ++ List.replicate 6 (.ascii 0x20) ++ [.replacement]))) := by decide +kernel

/-- Section 2.3. -/
theorem test_packNib :
    reply (exec (.packNib 10 9) fresh) =
      some (okResponse (.byte 0xA9)) := by decide +kernel

/-- Section 2.3. -/
theorem test_unpackNib :
    reply (exec (.unpackNib 0xA9) fresh) =
      some (okResponse (.nibbles 10 9)) := by decide +kernel

/-- Section 2.4, H3. -/
theorem test_msgEncHb_clamps :
    reply (exec (.msgEncHb ⟨0x12, 0xFF, 100000, 0xFFFF⟩) fresh) =
      some (okResponse (.bytes [0x00, 0x12, 0xFF, 0x7F, 0x51, 0xFF, 0xFF])) := by decide +kernel

/-- Section 2.4, H5. -/
theorem test_msgEncHb_status2_bit7 :
    reply (exec (.msgEncHb ⟨0x00, 0x80, 0, 0x0000⟩) fresh) =
      some (okResponse (.bytes [0x00, 0x00, 0x00, 0x00, 0x00, 0x00, 0x00])) := by decide +kernel

/-- Section 1.6. -/
theorem test_msgEncOwn :
    reply (exec (.msgEncOwn o1) fresh) =
      some (okResponse (.bytes o1Payload)) := by decide +kernel

/-- Section 2.4, O2. -/
theorem test_msgEncOwn_saturates :
    reply (exec (.msgEncOwn o2) fresh) =
      some (okResponse (.bytes ([0x0A, 0x00, 0xFF, 0xFF, 0xFF, 0x40, 0x00, 0x00, 0x80, 0x00, 0x00, 0xFF, 0xEF, 0xFF] ++
        [0xFF, 0xE1, 0xFD, 0x00, 0xFF, 0x41, 0x42, 0x43, 0x44, 0x45, 0x46, 0x47, 0x48, 0xF0]))) := by decide +kernel

/-- Section 1.7 (a). -/
theorem test_msgEncTraf :
    reply (exec (.msgEncTraf t1) fresh) =
      some (okResponse (.bytes t1Payload)) := by decide +kernel

/-- Section 2.4, T2. -/
theorem test_msgEncTraf_absent :
    reply (exec (.msgEncTraf t2) fresh) =
      some (okResponse (.bytes t2Payload)) := by decide +kernel

/-- Sections 1.6 and 2.4: bytes beyond the fixed length are ignored. -/
theorem test_msgDec_own_longer :
    reply (exec (.msgDec (o1Payload ++ [0x99])) fresh) =
      some (okResponse (.message o1Decoded)) := by decide +kernel

/-- Section 2.4. -/
theorem test_msgDec_unknown :
    reply (exec (.msgDec [0x65, 0x01, 0x02]) fresh) =
      some (errResponse (.unknownKind 0x65 [0x65, 0x01, 0x02])) := by decide +kernel

/-- Sections 2.4 and 3.5. -/
theorem test_encodeFrame :
    reply (exec (.encodeFrame (.hb ⟨0x81, 0x41, 53467, 0x0802⟩)) fresh) = some (okResponse (.bytes f1)) ∧
      reply (exec (.encodeFrame (.hb ⟨0x81, 0x41, 53467, 0x0802⟩)) other) =
        some (okResponse (.bytes [0x7E, 0x00, 0x81, 0x41, 0xDB, 0xD0, 0x08, 0x02, 0xDA, 0x50, 0x7E])) := by decide +kernel

/-- Section 2.4, O3. -/
theorem test_encodeFrame_bad_address :
    reply (exec (.encodeFrame (.own (OwnshipReport.mk 0x1000000 o1.position o1.velocity 0 0 0 [] 0))) fresh) =
      some (errResponse .invalidAddress) := by decide +kernel

/-- Section 2.4. -/
theorem test_decodeFrame_unknown :
    reply (exec (.decodeFrame [0x7E, 0x65, 0x01, 0x02, 0x01, 0x3D, 0x7E]) fresh) =
      some (errResponse (.unknownKind 0x65 [0x65, 0x01, 0x02])) := by decide +kernel

/-- Section 3.5. -/
theorem test_decodeFrame_other_form :
    reply (exec (.decodeFrame f1) other) =
      some (errResponse .crcMismatch) := by decide +kernel

/-- Section 1.8. -/
theorem test_feed_split_frames :
    let x := exec (.feed 0 ([0xD0, 0x08, 0x02, 0xB3, 0x8B, 0x7E] ++ f2)) (holding [0x7E, 0x00, 0x81, 0x41, 0xDB])
    reply x = some (okResponse (.items [.ok h1, .ok h2])) ∧ buffers x = some [[0x7E], [0x7E]] := by decide +kernel

/-- Section 2.5. -/
theorem test_feed_overflow :
    let x := exec (.feed 0 [0x55]) (holding (0x7E :: List.replicate 63 0x55))
    reply x = some (okResponse (.items [.err .bufferOverflow])) ∧ buffers x = some [[], [0x7E]] := by decide +kernel

/-- Section 2.5. -/
theorem test_reasmReset_one_buffer :
    let x := exec (.reasmReset 0) (holding [0x7E, 0x00, 0x81])
    reply x = some (okResponse .unit) ∧ buffers x = some [[], [0x7E]] := by decide +kernel

/-- Section 2.6. -/
theorem test_reasmReset_out_of_range :
    let x := exec (.reasmReset 5) (holding [0x7E, 0x00, 0x81])
    reply x = some ⟨0x21, .noInfo⟩ ∧ buffers x = some [[0x7E, 0x00, 0x81], [0x7E]] := by decide +kernel

/-- Section 2.4: a timestamp above 86399 is returned as is. -/
theorem test_payloadHeartbeat :
    reply (exec (.payloadHeartbeat [0x00, 0x00, 0x80, 0xFF, 0xFF, 0x00, 0x00]) fresh) =
      some (okResponse (.message (.hb ⟨0x00, 0x00, 131071, 0⟩))) := by decide +kernel

/-- Section 2.4. -/
theorem test_payloadHeartbeat_short :
    reply (exec (.payloadHeartbeat [0x00, 0x01, 0x02, 0x03, 0x04, 0x05]) fresh) =
      some (errResponse .truncated) := by decide +kernel

/-- Section 2.4, T4. -/
theorem test_payloadOwnship_byte1 :
    reply (exec (.payloadOwnship (o1Payload.set 1 0xFF)) fresh) =
      some (okResponse (.message o1Decoded)) := by decide +kernel

/-- Section 2.4, T2 and T3. -/
theorem test_payloadTraffic_absent :
    reply (exec (.payloadTraffic (t2Payload.set 1 0xFF)) fresh) =
      some (okResponse (.message (.traf ⟨true, 7, 0x000001, ⟨-90, -180, none, 0⟩, ⟨none, none, 0⟩, 0, 0, 0, [], 15⟩))) := by decide +kernel

/-! ## Steps of the machine -/

/-- Section 2.6: inst is ignored. -/
theorem test_step_runs_the_request :
    reply (step (asking ⟨0x01, 0x07, .bytes [0x01]⟩)) = some (okResponse (.u16 0x0001)) := by decide +kernel

/-- Section 2.6. -/
theorem test_step_illegal_op : reply (step (asking ⟨0x06, 0x00, .none⟩)) = some ⟨0x21, .noInfo⟩ := by decide +kernel

theorem test_step_not_presentable :
    refusal (step (asking ⟨0x10, 0x00, .bytes [0x01]⟩)) = some (.notPresentable 0x10) := by decide +kernel

/-- R340. -/
theorem test_step_reset :
    let s := holding [0x7E, 0x00, 0x81]
    buffers (step (s.putMove .reset)) = some [[], []] := by decide +kernel

theorem test_table_word_of_a_request :
    decodeTableWord 8 0x50 = some (.feed 0 []) ∧ reply (step (State.reset.withFetchWord 8 0x50)) = some (okResponse (.items [])) := by decide +kernel

theorem test_table_word_of_a_payload :
    decodeTableWord 8 0x00 = some (.payloadHeartbeat (zeroPayload 0x00)) ∧
      reply (step (State.reset.withFetchWord 8 0x00)) = reply (exec (.payloadHeartbeat (zeroPayload 0x00)) State.reset) := by decide +kernel

/-! ## Witnesses: the hypotheses of each statement, met -/

/-- `exec i s` answers, when the states computed on both sides are the same. -/
theorem answers_of_eq {s t : State} {i : Instr} {status : Byte} {result : Result}
    (h : exec i s = .next t) (e : t = { s with responses := s.responses ++ [⟨status, result⟩] }) :
    Answers s i status result := h.trans (congrArg Host.Outcome.next e)

theorem witness_StepRunsDecodedRequest :
    (∃ (s : State) (r : Request) (rest : List HostMove) (i : Instr),
      s.pending = .request r :: rest ∧ decodeRequest r = .ok i) ∧ ∃ s : State, s.pending = [] :=
  ⟨⟨asking ⟨0x50, 0x01, .bytes [0x7E]⟩, _, _, .feed 0x01 [0x7E], rfl, rfl⟩, fresh, rfl⟩

/-- Each way to be illegal: an op just outside a group of R82, and the first instance that does not exist. -/
theorem witness_IllegalCommandIsAResponse :
    (0x06 : Byte) ∉ assignedOps ∧ (0x52 : Byte) ∉ assignedOps ∧
    (asking ⟨0x06, 0x00, .none⟩).pending = [.request ⟨0x06, 0x00, .none⟩] ∧
    (asking ⟨0x50, 0x02, .bytes [0x7E]⟩).pending = [.request ⟨0x50, 0x02, .bytes [0x7E]⟩] ∧
    (asking ⟨0x51, 0x02, .none⟩).pending = [.request ⟨0x51, 0x02, .none⟩] ∧
    fresh.cfg.reasmInstances ≤ (0x02 : Byte).toNat ∧ fresh.cfg.reasmInstances ≤ (0xFF : Byte).toNat := by decide +kernel

theorem witness_ResetMoveEmptiesEveryBuffer :
    ((holding [0x7E, 0x00]).putMove .reset).pending = .reset :: [] ∧ (holding [0x7E, 0x00]).buf 0 ≠ [] := by decide +kernel

theorem witness_EachPresentableRequestGetsOneResponse :
    (asking ⟨0x10, 0x00, .u32 0x1000000⟩).pending = [.request ⟨0x10, 0x00, .u32 0x1000000⟩] ∧
    presentable ⟨0x10, 0x00, .u32 0x1000000⟩ = true ∧ presentable ⟨0x06, 0x00, .bytes []⟩ = true ∧
    presentable ⟨0x50, 0xFF, .bytes []⟩ = true := by decide +kernel

theorem witness_BufferlessOperationsDependOnOperandsAlone :
    touchesNoBuffer (.crc16 [0x01]) = true ∧ touchesNoBuffer (.payloadTraffic t1Payload) = true ∧
    fresh.cfg = Config.vectors := by decide +kernel

theorem witness_InstIsIgnoredByOtherOperations : (0x41 : Byte) ≠ 0x50 ∧ (0x41 : Byte) ≠ 0x51 := by decide

theorem witness_DecodeInvertsEncode :
    wellFormed (.feed 0x01 [0x7E]) = true ∧ wellFormed (.payloadHeartbeat (0x00 :: List.replicate 6 0xFF)) = true ∧
    wellFormed (.payloadOwnship o1Payload) = true ∧ wellFormed (.payloadTraffic t1Payload) = true := by decide

theorem witness_DecodedInstructionIsWellFormed :
    decode (.request ⟨0x51, 0x01, .none⟩) = .ok (.reasmReset 0x01) ∧
    decode (.payload t1Payload) = .ok (.payloadTraffic t1Payload) := ⟨rfl, rfl⟩

theorem witness_EncodeInvertsDecode :
    decodeRequest ⟨0x01, 0x07, .bytes []⟩ = .ok (.crc16 []) ∧
    decodeRequest ⟨0x50, 0x07, .bytes []⟩ = .ok (.feed 0x07 []) ∧
    decodePayload o1Payload = .ok (.payloadOwnship o1Payload) := ⟨rfl, rfl, rfl⟩

/-- An ID next to a known one, and each kind one byte too short and at its fixed length. -/
theorem witness_MsgDecChecksThenDecodes :
    (0x0B : Byte) ≠ 0x00 ∧ (0x0B : Byte) ≠ 0x0A ∧ (0x0B : Byte) ≠ 0x14 ∧
    (List.replicate 6 (0x00 : Byte)).head? = some 0x00 ∧ (List.replicate 6 (0x00 : Byte)).length < 7 ∧
    (List.replicate 7 (0x00 : Byte)).head? = some 0x00 ∧ 7 ≤ (List.replicate 7 (0x00 : Byte)).length ∧
    o1Payload.dropLast.head? = some 0x0A ∧ o1Payload.dropLast.length < 28 ∧
    o1Payload.head? = some 0x0A ∧ 28 ≤ o1Payload.length ∧
    t1Payload.dropLast.head? = some 0x14 ∧ t1Payload.dropLast.length < 28 ∧
    t1Payload.head? = some 0x14 ∧ 28 ≤ t1Payload.length := by decide

/-- The lengths on both sides of each bound. -/
theorem witness_PayloadRowsAnswerAsMsgDec :
    (List.replicate 6 (0x00 : Byte)).length < 7 ∧ 7 ≤ (List.replicate 7 (0x00 : Byte)).length ∧
    o1Payload.dropLast.length < 28 ∧ 28 ≤ o1Payload.length ∧ 28 ≤ t1Payload.length := by decide

theorem witness_FlippedBitIsDetected : 6 < [0x00, 0x81, 0x41, 0xDB, 0xD0, 0x08, (0x02 : Byte)].length ∧ 7 < 8 := by decide

/-- Each clause: a plain byte and an escaped byte before a tail that unescapes, and before one that does not. -/
theorem witness_UnescapeReadsOneUnitAtATime :
    Answers fresh (.unescape [0x7D, 0x5E]) 0x00 (.bytes [0x7E]) ∧ Answers fresh (.unescape [0x01, 0x7D]) 0x02 .noInfo ∧
    (0x7E : Byte) ≠ 0x7D :=
  ⟨answers_of_eq rfl (by decide +kernel), answers_of_eq rfl (by decide +kernel), by decide⟩

theorem witness_UnwrapInvertsWrap : ([0x7E] : Bytes) ≠ [] ∧ ([] : Bytes) = [] := by decide

/-- Each clause: too short by one, a wrong first and a wrong last byte; then a frame for each of the later outcomes. -/
theorem witness_UnwrapMakesItsChecksInOrder :
    (([0x7E, 0x00, 0x7E] : Bytes).length < 4 ∧ ([0x00, 0x81, 0x41, 0x7E] : Bytes).head? ≠ some 0x7E ∧
      ([0x7E, 0x01, 0x01, 0x00, 0x7D] : Bytes).getLast? ≠ some 0x7E) ∧
    4 ≤ (0x7E :: ([0x00, 0x7D] ++ [0x7E]) : Bytes).length ∧ Answers fresh (.unescape [0x00, 0x7D]) 0x02 .noInfo ∧
    (Answers fresh (.unescape [0x00, 0x7D, 0x5E]) 0x00 (.bytes [0x00, 0x7E]) ∧ ([0x00, 0x7E] : Bytes).length ≤ 2) ∧
    (Answers fresh (.unescape [0x01, 0x01, 0x00]) 0x00 (.bytes ([0x01] ++ [0x01, 0x00])) ∧ ([0x01] : Bytes) ≠ [] ∧
      Answers fresh (.crc16 [0x01]) 0x00 (.u16 (0x00#8 ++ 0x01#8))) ∧
    (Answers fresh (.unescape [0x01, 0x02, 0x00]) 0x00 (.bytes ([0x01] ++ [0x02, 0x00])) ∧
      ¬ Answers fresh (.crc16 [0x01]) 0x00 (.u16 (0x00#8 ++ 0x02#8))) := by
  refine ⟨by decide, by decide, answers_of_eq rfl (by decide +kernel), ⟨answers_of_eq rfl (by decide +kernel), by decide⟩,
    ⟨answers_of_eq rfl (by decide +kernel), by decide, answers_of_eq rfl (by decide +kernel)⟩,
    answers_of_eq rfl (by decide +kernel), fun h => ?_⟩
  exact absurd (Host.Outcome.next.inj h) (by decide +kernel)

/-- Both tie rules, on both sides of zero. -/
theorem witness_RoundIsTheNearestInteger :
    IsRound .halfEven (1 / 2) 0 ∧ IsRound .halfAway (1 / 2) 1 ∧ IsRound .halfEven (-1 / 2) 0 ∧
    IsRound .halfAway (-1 / 2) (-1) := by
  refine ⟨?_, ?_, ?_, ?_⟩ <;> norm_num [IsRound]

theorem witness_EncLonQuantizesTheClampedLongitude : (180 - 90 / 2 ^ 23 : Q) ≤ 754974675 / 4194304 := by norm_num

/-- The codes next to each sentinel. -/
theorem witness_CodesDecodeToTheirNumbers :
    (0xFFE : UInt12) ≠ 0xFFF ∧ (0x000 : UInt12) ≠ 0xFFF ∧ (0x7FF : UInt12) ≠ 0x800 ∧ (0x801 : UInt12) ≠ 0x800 := by decide

/-- The first and the last place, with a character and without one. -/
theorem witness_EncCsTruncatesOrPads :
    0 < 8 ∧ ([0x4E] : CallsignIn)[0]? = some 0x4E ∧ 7 < 8 ∧ ([0x4E] : CallsignIn)[7]? = none := by decide

theorem witness_CallsignSurvivesTheRoundTrip :
    ([] : CallsignIn).length ≤ 8 ∧ ([] : CallsignIn).getLast? ≠ some 0x20 ∧
    ([0x20, 0x42, 0x43, 0x44, 0x45, 0x46, 0x20, 0x48] : CallsignIn).length ≤ 8 ∧
    ([0x20, 0x42, 0x43, 0x44, 0x45, 0x46, 0x20, 0x48] : CallsignIn).getLast? ≠ some 0x20 := by decide

theorem witness_Pack24RejectsAndUnpack24Inverts :
    0xFFFFFF < (0x1000000 : BitVec 32).toNat ∧ (0xFFFFFF : BitVec 32).toNat ≤ 0xFFFFFF := by decide

theorem witness_SentinelsMeanNoDataAndNothingElse :
    32576 ≤ (32576 : BitVec 32).toInt ∧ (BitVec.ofInt 32 (-32576)).toInt ≤ -32576 ∧
    (BitVec.ofInt 32 (-2147483648)).toInt ≤ -32576 := by decide

/-- Both ends of each range. -/
theorem witness_FieldRoundTripsStayWithinHalfAStep :
    (-90 ≤ (-90 : Q) ∧ (90 : Q) ≤ 90) ∧
    (-180 ≤ (-180 : Q) ∧ (1509949349 / 8388608 : Q) < 180 - 90 / 2 ^ 23) ∧
    (-1012.5 ≤ (-1012.5 : Q) ∧ (101362.4 : Q) < 101362.5) ∧
    (4094 : BitVec 16).toNat ≤ 4094 ∧
    (-32576 ≤ (BitVec.ofInt 32 (-32576)).toInt ∧ (32576 : BitVec 32).toInt ≤ 32576) := by
  refine ⟨by norm_num, by norm_num, by norm_num, by decide, by decide⟩

theorem witness_OwnshipPayloadFollowsItsLayout :
    0xFFFFFF < (OwnshipReport.mk 0x1000000 o1.position o1.velocity 0 0 0 [] 0).participantAddress.toNat ∧
    o2.participantAddress.toNat ≤ 0xFFFFFF := by decide

theorem witness_TrafficPayloadFollowsItsLayout :
    0xFFFFFF < (TrafficReport.mk true 7 0x1000000 t1.position t1.velocity 0 0 0 [] 0).participantAddress.toNat ∧
    t1.participantAddress.toNat ≤ 0xFFFFFF := by decide

theorem witness_DecodeFrameIsMsgDecAfterUnwrap :
    Answers fresh (.unwrap f1) 0x00 (.bytes [0x00, 0x81, 0x41, 0xDB, 0xD0, 0x08, 0x02]) ∧
    Answers fresh (.unwrap [0x7E, 0x00, 0x00, 0x7E]) 0x03 .noInfo :=
  ⟨answers_of_eq rfl (by decide +kernel), answers_of_eq rfl (by decide +kernel)⟩

theorem witness_FramesHaveBoundedLength :
    o2.participantAddress.toNat ≤ 0xFFFFFF ∧ t2.participantAddress.toNat ≤ 0xFFFFFF := by decide

theorem witness_ReportPayloadsDecodeFieldByField :
    28 ≤ o1Payload.length ∧ o1Payload.head? = some 0x0A ∧ 28 ≤ (t1Payload ++ [0x99]).length ∧
    (t1Payload ++ [0x99]).head? = some 0x14 := by decide

/-- A message in range of each kind; the report at the ends of its ranges. -/
theorem witness_InRangeMessageSurvivesTheWire :
    InRange (.hb ⟨0xFF, 0x7F, 86399, 0xFFFF⟩) ∧
    InRange (.own ⟨0xFFFFFF, ⟨90, -180, some (-1012.5), 15⟩, ⟨some 4094, some (BitVec.ofInt 32 (-32576)), 359.9⟩, 15, 15, 0xFF,
      [0x41, 0x42, 0x43, 0x44, 0x45, 0x46, 0x47, 0x48], 15⟩) ∧
    InRange (.traf t2) := by
  refine ⟨⟨by decide, by decide⟩, ?_, ?_⟩
  · refine ⟨by decide, by norm_num, by norm_num, ?_, ?_, ?_, by decide, by decide⟩
    · rintro ft ⟨⟩; norm_num
    · rintro kt ⟨⟩; decide
    · rintro v ⟨⟩; decide
  · refine ⟨by decide, by norm_num [t2], by norm_num [t2], ?_, ?_, ?_, by decide, by decide⟩
    · rintro ft ⟨⟩
    · rintro kt ⟨⟩
    · rintro v ⟨⟩

/-- The last instance; a retained buffer of exactly the maximum, and one byte more. -/
theorem witness_FeedCutsAtTheDelimiters :
    (0x01 : Byte).toNat < fresh.cfg.reasmInstances ∧
    fresh.cfg.reasmMaxBytes = (openPiece (fresh.buf 1 ++ (0x7E :: List.replicate 63 0x55))).length ∧
    fresh.cfg.reasmMaxBytes < (openPiece (fresh.buf 1 ++ (0x7E :: List.replicate 64 0x55))).length := by decide +kernel

theorem witness_ReasmResetEmptiesOneBuffer :
    (0x01 : Byte).toNat < (holding [0x7E]).cfg.reasmInstances ∧ (holding [0x7E]).buf 1 ≠ [] ∧ (0 : Nat) ≠ (0x01 : Byte).toNat := by
  decide +kernel

/-- A step that changes a buffer. -/
theorem witness_OnlyFeedAndResetWriteABuffer : ∃ t : State,
    exec (.feed 0 [0x7E]) fresh = .next t ∧ t.buf 0 ≠ fresh.buf 0 := ⟨_, rfl, by decide +kernel⟩

/-- Two states that differ in the other instance's buffer. -/
theorem witness_FeedReadsOnlyItsOwnBuffer : ∃ t t' : State,
    (holding [0x7E, 0x00]).cfg = (holding [0x7E]).cfg ∧
    (holding [0x7E, 0x00]).buf (0x01 : Byte).toNat = (holding [0x7E]).buf (0x01 : Byte).toNat ∧
    (holding [0x7E, 0x00]).bufs.length = (holding [0x7E, 0x00]).cfg.reasmInstances ∧
    (holding [0x7E]).bufs.length = (holding [0x7E]).cfg.reasmInstances ∧
    (0x01 : Byte).toNat < (holding [0x7E]).cfg.reasmInstances ∧
    exec (.feed 1 f1) (holding [0x7E, 0x00]) = .next t ∧ exec (.feed 1 f1) (holding [0x7E]) = .next t' :=
  ⟨_, _, rfl, rfl, rfl, rfl, by decide, rfl, rfl⟩

theorem fresh_inv : Inv fresh := by
  refine ⟨by decide, by decide, ?_⟩
  intro b hb
  have : b = [] := by simpa [fresh, State.reset, State.resetWith, Config.vectors] using hb
  subst this
  decide

/-- The stream f1 f2 in two chunks, split inside f1 (section 1.8), and whole. -/
theorem witness_SplittingAStreamChangesNoItem : ∃ t u : State,
    Inv fresh ∧ (0x00 : Byte).toNat < fresh.cfg.reasmInstances ∧ fresh.responses = [] ∧
    Sys2Proof.core.run [f1.take 5, f1.drop 5 ++ f2].length
      { fresh with pending := feeds 0x00 [f1.take 5, f1.drop 5 ++ f2] } = .next t ∧
    Sys2Proof.core.run 1 { fresh with pending := feeds 0x00 [[f1.take 5, f1.drop 5 ++ f2].flatten] } = .next u ∧
    .err .bufferOverflow ∉ itemsIn t.responses ∧ .err .bufferOverflow ∉ itemsIn u.responses :=
  ⟨_, _, fresh_inv, by decide, rfl, rfl, rfl, by decide +kernel, by decide +kernel⟩

theorem witness_FrameAfterAnyNoiseIsDecoded :
    fresh.cfg.Legal ∧ (0x01 : Byte).toNat < fresh.cfg.reasmInstances ∧
    0x7E ∉ ([0x00, 0x81, 0x41, 0xDB, 0xD0, 0x08, 0x02, 0xB3, 0x8B] : Bytes) ∧
    Answers fresh (.decodeFrame (0x7E :: ([0x00, 0x81, 0x41, 0xDB, 0xD0, 0x08, 0x02, 0xB3, 0x8B] ++ [0x7E]))) 0x00
      (.message h1) :=
  ⟨by decide, by decide, by decide, answers_of_eq rfl (by decide +kernel)⟩

/-- Two frames, into a buffer with a delimiter left over and into an empty one. -/
theorem witness_ManyFramesGiveManyItems :
    fresh.cfg.Legal ∧ (0x00 : Byte).toNat < fresh.cfg.reasmInstances ∧ fresh.buf 0 = [] ∧ (holding [0x7E]).buf 0 = [0x7E] ∧
    ∀ f ∈ ([(f1.tail.dropLast, h1), (f2.tail.dropLast, h2)] : List (Bytes × DecodedMessage)),
      0x7E ∉ f.1 ∧ Answers fresh (.decodeFrame (0x7E :: (f.1 ++ [0x7E]))) 0x00 (.message f.2) := by
  refine ⟨by decide, by decide, rfl, rfl, ?_⟩
  intro f hf
  simp only [List.mem_cons, List.not_mem_nil, or_false] at hf
  rcases hf with rfl | rfl
  · exact ⟨by decide, answers_of_eq rfl (by decide +kernel)⟩
  · exact ⟨by decide, answers_of_eq rfl (by decide +kernel)⟩

/-- 64 bytes held is the maximum, 65 is beyond it. -/
theorem witness_OverflowClearsTheBuffer :
    (0x00 : Byte).toNat < (holding (0x7E :: List.replicate 62 0x55)).cfg.reasmInstances ∧
    (holding (0x7E :: List.replicate 62 0x55)).buf 0 = 0x7E :: List.replicate 62 0x55 ∧
    0x7E ∉ List.replicate 62 (0x55 : Byte) ∧ 0x7E ∉ ([0x55, 0x55] : Bytes) ∧
    (List.replicate 62 (0x55 : Byte)).length + ([0x55] : Bytes).length + 1 = fresh.cfg.reasmMaxBytes ∧
    fresh.cfg.reasmMaxBytes < (List.replicate 62 (0x55 : Byte)).length + ([0x55, 0x55] : Bytes).length + 1 := by
  decide +kernel

theorem witness_SpanLoopNeverRunsOutOfFuel : f1.length < 12 := by decide

theorem witness_StepKeepsTheBufferInvariant : ∃ t : State,
    Inv { fresh with pending := feeds 0x01 [f1] } ∧ step { fresh with pending := feeds 0x01 [f1] } = .next t :=
  ⟨_, fresh_inv, rfl⟩

theorem witness_ResetMeetsTheBufferInvariant : (Config.mk .icd .halfEven 62 1).Legal ∧ ¬ (Config.mk .icd .halfEven 61 1).Legal := by
  decide

end Sys2Proof.Tests
end

section
/-!
PROOFS. The reset state (R38): its fields, and what they say of the buffers.
-/

namespace Sys2Proof.Machine

@[simp] theorem State.resetWith_cfg (c : Config) : (State.resetWith c).cfg = c := rfl

@[simp] theorem State.resetWith_bufs (c : Config) :
    (State.resetWith c).bufs = List.replicate c.reasmInstances [] := rfl

/-- Reset gives each reassembler instance its buffer (R35, R38). -/
theorem State.length_bufs_resetWith (c : Config) :
    (State.resetWith c).bufs.length = c.reasmInstances := by
  rw [State.resetWith_bufs, List.length_replicate]

/-- Settles O3, field by field from the reset state's own lemmas. -/
theorem resetStateHasEmptyBuffers : Obligations.ResetStateHasEmptyBuffers := fun c =>
  ⟨State.resetWith_cfg c, State.length_bufs_resetWith c, State.buf_resetWith c⟩

end Sys2Proof.Machine
end

section
/-!
PROOFS. Requests that are answered IllegalCommand (R83, R303): R82's table lists exactly the assigned ops, and what the host's
side of a step does with an op that is not among them.
-/

namespace Sys2Proof.Machine

open Sys2Proof.Claims

theorem map_fst_operationTable : operationTable.map Prod.fst = assignedOps := rfl

/-- The table selects no operation just for the ops R82 does not list. -/
theorem operationOf_eq_none_iff {op : Byte} : operationOf op = none ↔ op ∉ assignedOps := by
  simp only [operationOf, Option.map_eq_none_iff, List.find?_eq_none, beq_iff_eq, ← map_fst_operationTable,
    List.mem_map, not_exists, not_and]

theorem takeRequest_of_decodeRequest_ok {r : Request} {i : Instr} (s : State) (h : decodeRequest r = .ok i) :
    takeRequest r s = exec i s := by
  simp only [takeRequest, h]

/-- An unassigned op is answered, whatever its operand record (R83, R303). -/
theorem takeRequest_unassigned {r : Request} (s : State) (h : r.op ∉ assignedOps) :
    takeRequest r s = .next (s.raise .illegalCommand) := by
  simp only [takeRequest, decodeRequest, operationOf_eq_none_iff.mpr h]

theorem decodeRequest_feed (k : Byte) (data : Bytes) :
    decodeRequest ⟨0x50, k, .bytes data⟩ = .ok (.feed k data) := rfl

theorem decodeRequest_reasmReset (k : Byte) :
    decodeRequest ⟨0x51, k, .none⟩ = .ok (.reasmReset k) := rfl

theorem takeRequest_feed_outOfRange {s : State} {k : Byte} (data : Bytes) (h : s.cfg.reasmInstances ≤ k.toNat) :
    takeRequest ⟨0x50, k, .bytes data⟩ s = .next (s.raise .illegalCommand) :=
  (takeRequest_of_decodeRequest_ok s (decodeRequest_feed k data)).trans (execFeed_outOfRange data h)

theorem takeRequest_reasmReset_outOfRange {s : State} {k : Byte} (h : s.cfg.reasmInstances ≤ k.toNat) :
    takeRequest ⟨0x51, k, .none⟩ s = .next (s.raise .illegalCommand) :=
  (takeRequest_of_decodeRequest_ok s (decodeRequest_reasmReset k)).trans (execReasmReset_outOfRange h)

/-- What raising IllegalCommand writes: status 0x21 with no result, and nothing else (R301, R302). -/
theorem State.raise_illegalCommand (s : State) :
    s.raise .illegalCommand = { s with responses := s.responses ++ [⟨0x21, .noInfo⟩] } := rfl

/-- Settles O2: the step takes the request off the host's program, and each of the three kinds of request raises
IllegalCommand, which gives the response and writes nothing else. -/
theorem illegalCommandIsAResponse : Obligations.IllegalCommandIsAResponse := by
  intro s ⟨op, k, args⟩ rest hp hr
  have hraise : takeRequest ⟨op, k, args⟩ { s with pending := rest } =
      .next (State.raise { s with pending := rest } .illegalCommand) := by
    obtain hop | ⟨⟨rfl, data, rfl⟩ | ⟨rfl, rfl⟩, hk⟩ := hr
    · exact takeRequest_unassigned _ hop
    · exact takeRequest_feed_outOfRange data hk
    · exact takeRequest_reasmReset_outOfRange hk
  rw [step_move hp, takeHostMove, hraise, State.raise_illegalCommand]

end Sys2Proof.Machine
end

section
/-!
PROOFS. The Heartbeat payload MSG_ENC_HB writes (R93, R233), its bytes read as numbers.
-/

namespace Sys2Proof.Machine

open Sys2Proof.Claims

/-- A concatenation as a number: the low part keeps its place, the high part is shifted over it. -/
theorem toNat_append_eq_mul_add {m n : Nat} (x : BitVec m) (y : BitVec n) :
    (x ++ y).toNat = x.toNat * 2 ^ n + y.toNat := by
  rw [BitVec.toNat_append, ← Nat.shiftLeft_add_eq_or_of_lt y.isLt, Nat.shiftLeft_eq]

/-- The clamp at 86399 comes before the narrowing to 17 bits, which therefore loses nothing (R233). -/
theorem toNat_heartbeatTimestamp (t : BitVec 32) : (heartbeatTimestamp t).toNat = min t.toNat 86399 := by
  rw [heartbeatTimestamp, BitVec.toNat_ofNat]
  omega

theorem answers_msgEncHb (s : State) (m : Heartbeat) : Answers s (.msgEncHb m) 0x00 (.bytes (msgEncHb m)) := rfl

/-- Settles O41: the answer is the model's payload, and each of its bytes is read off the clamped timestamp or the count. -/
theorem heartbeatPayloadFollowsItsLayout : Obligations.HeartbeatPayloadFollowsItsLayout := by
  intro s m
  have hts := toNat_heartbeatTimestamp m.timestampSeconds
  have hcount := m.messageCount.isLt
  refine ⟨_, _, _, _, _, _, rfl, ?_, ?_, ?_, ?_, ?_, answers_msgEncHb s m⟩
  all_goals simp only [toNat_append_eq_mul_add, BitVec.extractLsb'_toNat, Nat.shiftRight_eq_div_pow, hts]
  all_goals omega

end Sys2Proof.Machine
end

section
/-!
PROOFS. CRC16 one byte at a time (R122), and the frame WRAP builds from its answer (R124, R143).
-/

namespace Sys2Proof.Machine

open Sys2Proof.Claims

theorem answers_crc16 (s : State) (data : Bytes) :
    Answers s (.crc16 data) 0x00 (.u16 (crc16 s.cfg.crcForm data)) := rfl

theorem answers_escape (s : State) (data : Bytes) : Answers s (.escape data) 0x00 (.bytes (escape data)) := rfl

theorem answers_wrap (s : State) (p : Bytes) : Answers s (.wrap p) 0x00 (.bytes (wrap s.cfg.crcForm p)) := rfl

/-- The initial value (R122). -/
@[simp] theorem crc16_nil (form : CrcForm) : crc16 form [] = 0x0000 := rfl

/-- One byte more is one update more (R122). -/
theorem crc16_concat (form : CrcForm) (data : Bytes) (b : Byte) :
    crc16 form (data ++ [b]) = crcStep form (crc16 form data) b :=
  crc16_append form data [b]

/-- ICD: the byte is xored in after the table lookup. -/
theorem crcStep_icd (c : BitVec 16) (b : Byte) :
    crcStep .icd c b = crcEntry (c.extractLsb' 8 8) ^^^ (c <<< 8) ^^^ b.setWidth 16 := rfl

/-- XMODEM: the byte is xored into the table's index. -/
theorem crcStep_xmodem (c : BitVec 16) (b : Byte) :
    crcStep .xmodem c b = (c <<< 8) ^^^ crcEntry (c.extractLsb' 8 8 ^^^ b) := rfl

/-- WRAP's body is the stuffed payload and CRC, the CRC's low byte first (R124, R143). -/
theorem wrap_eq (form : CrcForm) (p : Bytes) :
    wrap form p =
      [0x7E] ++ escape (p ++ [(crc16 form p).extractLsb' 0 8, (crc16 form p).extractLsb' 8 8]) ++ [0x7E] := rfl

/-- Settles O15: the two answers are CRCs that differ by one update, and each form's update is its equation. -/
theorem crc16UpdatesOncePerByte : Obligations.Crc16UpdatesOncePerByte := by
  intro s data b
  refine ⟨crc16_nil s.cfg.crcForm ▸ answers_crc16 s [], _, _, answers_crc16 s data, answers_crc16 s (data ++ [b]), ?_⟩
  rw [crc16_concat]
  cases s.cfg.crcForm with
  | icd => exact crcStep_icd _ b
  | xmodem => exact crcStep_xmodem _ b

/-- Settles O21: the CRC and the body are what CRC16 and ESCAPE answer, and WRAP puts the delimiters around that body. -/
theorem wrapIsDelimitersAroundTheStuffedBody : Obligations.WrapIsDelimitersAroundTheStuffedBody := by
  intro s p
  refine ⟨_, _, answers_crc16 s p, answers_escape s _, ?_⟩
  rw [← wrap_eq]
  exact answers_wrap s p

end Sys2Proof.Machine
end

section
/-!
PROOFS. What UNESCAPE answers, one unit at a time (R142), and the checks of UNWRAP in R145's order, each read off what UNESCAPE
and CRC16 answer on the bytes between the delimiters (R144).
-/

namespace Sys2Proof.Claims

open Sys2Proof.Machine

/-! ## Answers -/

/-- An operation whose answer is not OK has raised an error. -/
theorem error_of_answers_ne_ok {s : State} {i : Instr} {x : Except ProtocolError Result} {status : Byte} {result : Result}
    (h : exec i s = .next (s.answer x)) (hst : status ≠ 0x00) (ha : Answers s i status result) : ∃ e, x = .error e := by
  have hresp : responseOf x = ⟨status, result⟩ := (answers_iff h).mp ha
  cases x with
  | error e => exact ⟨e, rfl⟩
  | ok r => exact absurd (congrArg Response.status hresp).symm hst

theorem map_bytes_eq_error {x : Except ProtocolError Bytes} {e : ProtocolError} :
    x.map Result.bytes = .error e ↔ x = .error e := by
  cases x <;> simp [Except.map]

theorem answers_crc16_iff {s : State} {p : Bytes} {c : BitVec 16} :
    Answers s (.crc16 p) 0x00 (.u16 c) ↔ crc16 s.cfg.crcForm p = c :=
  (answers_iff (resp := okResponse (.u16 (crc16 s.cfg.crcForm p))) rfl).trans (by simp [okResponse])

theorem answers_unescape_ok_iff {s : State} {data out : Bytes} :
    Answers s (.unescape data) 0x00 (.bytes out) ↔ unescape data = .ok out :=
  (answers_ok_iff rfl).trans map_bytes_eq_ok

/-- UNESCAPE answers 0x02 just when it fails, for it fails in one way only. -/
theorem answers_unescape_truncated_iff {s : State} {data : Bytes} :
    Answers s (.unescape data) 0x02 .noInfo ↔ unescape data = .error .truncatedEscape := by
  constructor
  · intro ha
    obtain ⟨e, he⟩ := error_of_answers_ne_ok rfl (by decide) ha
    have hu : unescape data = .error e := map_bytes_eq_error.mp he
    rw [hu, unescape_error hu]
  · intro hu
    exact answers_of_error rfl (map_bytes_eq_error.mpr hu)

theorem answers_unwrap_ok_iff {s : State} {w p : Bytes} :
    Answers s (.unwrap w) 0x00 (.bytes p) ↔ unwrap s.cfg.crcForm w = .ok p :=
  (answers_ok_iff rfl).trans map_bytes_eq_ok

theorem answers_unwrap_of_error {s : State} {w : Bytes} {e : ProtocolError} (h : unwrap s.cfg.crcForm w = .error e) :
    Answers s (.unwrap w) (statusOf e) (infoOf e) :=
  answers_of_error rfl (map_bytes_eq_error.mpr h)

/-! ## UNESCAPE -/

/-- UNESCAPE has two outcomes: bytes, or TruncatedEscape. -/
theorem unescape_ok_or_truncated (data : Bytes) :
    (∃ out, unescape data = .ok out) ∨ unescape data = .error .truncatedEscape := by
  cases hu : unescape data with
  | ok out => exact .inl ⟨out, rfl⟩
  | error e => exact .inr (by rw [unescape_error hu])

/-- Settles O19: each answer is an outcome of `unescape`, and a unit in front maps the outcome of the rest. -/
theorem unescapeReadsOneUnitAtATime : Obligations.UnescapeReadsOneUnitAtATime := by
  intro s
  simp only [answers_unescape_ok_iff, answers_unescape_truncated_iff]
  refine ⟨rfl, rfl, fun data out hu => ⟨fun b hb => ?_, fun x => ?_⟩, fun data hu => ⟨fun b hb => ?_, fun x => ?_⟩,
    unescape_ok_or_truncated⟩
  · rw [unescape_cons hb, hu]; rfl
  · rw [unescape_pair, hu]; rfl
  · rw [unescape_cons hb, hu]; rfl
  · rw [unescape_pair, hu]; rfl

/-! ## UNWRAP -/

/-- Check 1 of R144, on the string's first and last byte. -/
theorem isFramed_iff {w : Bytes} :
    isFramed w = true ↔ 4 ≤ w.length ∧ w.head? = some 0x7E ∧ w.getLast? = some 0x7E := by
  simp only [isFramed, byteAt, Bool.and_eq_true, decide_eq_true_eq, beq_iff_eq, and_assoc, List.head?_eq_getElem?,
    List.getLast?_eq_getElem?]
  refine and_congr_right fun hlen => ?_
  have hfirst : 0 < w.length := by omega
  have hlast : w.length - 1 < w.length := by omega
  simp [hfirst, hlast]

/-- Check 2 of R144: the error of UNESCAPE is the error of UNWRAP. -/
theorem unwrap_unescape_error (form : CrcForm) {inner : Bytes} {e : ProtocolError} (h : 2 ≤ inner.length)
    (hu : unescape inner = .error e) : unwrap form (0x7E :: (inner ++ [0x7E])) = .error e := by
  rw [unwrap_framed form h, hu]

/-- Check 3 of R144: no room for a payload in front of the CRC. -/
theorem unwrap_emptyPayload (form : CrcForm) {inner u : Bytes} (h : 2 ≤ inner.length) (hu : unescape inner = .ok u)
    (hlen : u.length ≤ 2) : unwrap form (0x7E :: (inner ++ [0x7E])) = .error .emptyPayload := by
  rw [unwrap_framed form h, hu]
  exact if_pos hlen

/-- Settles O24, check by check: each clause names the check that decides, and the checks before it hold. -/
theorem unwrapMakesItsChecksInOrder : Obligations.UnwrapMakesItsChecksInOrder := by
  intro s w
  refine ⟨fun hw => ?_, ?_⟩
  · have hf : isFramed w = false := by
      rw [Bool.eq_false_iff, ne_eq, isFramed_iff]
      rintro ⟨hlen, hhead, hlast⟩
      obtain h | h | h := hw
      · omega
      · exact h hhead
      · exact h hlast
    exact answers_unwrap_of_error (unwrap_notFramed _ hf)
  · rintro inner rfl hlen
    have hinner : 2 ≤ inner.length := by simpa using hlen
    simp only [answers_unescape_ok_iff, answers_unescape_truncated_iff, answers_crc16_iff, answers_unwrap_ok_iff]
    refine ⟨fun hu => ?_, fun u hu hshort => ?_, fun p lo hi hu hp => ⟨fun hcrc => ?_, fun hcrc => ?_⟩⟩
    · exact answers_unwrap_of_error (unwrap_unescape_error _ hinner hu)
    · exact answers_unwrap_of_error (unwrap_emptyPayload _ hinner hu hshort)
    · exact (unwrap_body _ hinner hp hu).trans (if_pos hcrc)
    · exact answers_unwrap_of_error ((unwrap_body _ hinner hp hu).trans (if_neg hcrc))

end Sys2Proof.Claims
end

section
/-!
PROOFS. ROUND (R170): the integer `roundQ` gives is the one the word `IsRound` describes, and it is the only one.
-/

namespace Sys2Proof.Claims

open Sys2Proof.Machine

/-- Within less than a half, no tie rule is asked. -/
theorem isRound_of_lt_half {mode : RoundMode} {q : Q} {r : Int} (h : q - r < 1 / 2) (h' : r - q < 1 / 2) :
    IsRound mode q r :=
  ⟨h.le, h'.le, fun htie => htie.elim (fun e => absurd e h.ne) (fun e => absurd e h'.ne)⟩

/-- HALF_EVEN: an even integer half a unit away or nearer is the rounded one. -/
theorem isRound_halfEven {q : Q} {r : Int} (h : q - r ≤ 1 / 2) (h' : r - q ≤ 1 / 2) (heven : r % 2 = 0) :
    IsRound .halfEven q r := ⟨h, h', fun _ => heven⟩

/-- HALF_AWAY: an integer half a unit away or nearer, on the far side of `q` from 0, is the rounded one. -/
theorem isRound_halfAway {q : Q} {r : Int} (h : q - r ≤ 1 / 2) (h' : r - q ≤ 1 / 2) (hpos : 0 < q → q < r)
    (hneg : q < 0 → r < q) : IsRound .halfAway q r := ⟨h, h', fun _ => ⟨hpos, hneg⟩⟩

/-- Two neighbours cannot both be ROUND(q): it would be a tie, both even or both on the far side of `q` from 0. -/
theorem IsRound.not_succ {mode : RoundMode} {q : Q} {r : Int} (h : IsRound mode q r) : ¬ IsRound mode q (r + 1) := by
  rintro ⟨-, hup, htieUp⟩
  obtain ⟨hlow, -, htieLow⟩ := h
  push_cast at hup htieUp
  have hq : q - r = 1 / 2 := by linarith
  replace htieLow := htieLow (.inl hq)
  replace htieUp := htieUp (.inr (by linarith))
  cases mode with
  | halfEven => simp only at htieLow htieUp; omega
  | halfAway =>
    simp only at htieLow htieUp
    rcases lt_trichotomy q 0 with hneg | rfl | hpos
    · have := htieUp.2 hneg; linarith
    · have : (2 * r + 1 : Q) = 0 := by linarith
      norm_cast at this; omega
    · have := htieLow.1 hpos; linarith

/-- ROUND does not pass an integer that `q` does not pass. -/
theorem IsRound.round_le_of_le {mode : RoundMode} {q : Q} {r n : Int} (h : IsRound mode q r) (hq : q ≤ n) : r ≤ n := by
  obtain ⟨-, hup, -⟩ := h
  have : (r : Q) < n + 1 := by linarith
  exact Int.lt_add_one_iff.mp (by exact_mod_cast this)

theorem IsRound.le_round_of_le {mode : RoundMode} {q : Q} {r n : Int} (h : IsRound mode q r) (hq : n ≤ q) : n ≤ r := by
  obtain ⟨hlow, -, -⟩ := h
  have : (n : Q) < r + 1 := by linarith
  exact Int.lt_add_one_iff.mp (by exact_mod_cast this)

/-- Two candidates are at most 1 apart, and `not_succ` excludes 1. -/
theorem IsRound.unique {mode : RoundMode} {q : Q} {r r' : Int} (h : IsRound mode q r) (h' : IsRound mode q r') :
    r = r' := by
  have ⟨hlow, hup, _⟩ := h
  have ⟨hlow', hup', _⟩ := h'
  have hle : (r : Q) ≤ r' + 1 := by linarith
  have hle' : (r' : Q) ≤ r + 1 := by linarith
  norm_cast at hle hle'
  have hne : r ≠ r' + 1 := by rintro rfl; exact h'.not_succ h
  have hne' : r' ≠ r + 1 := by rintro rfl; exact h.not_succ h'
  omega

/-! `roundQ`, an equation per branch. -/

theorem roundQ_of_lt_half {mode : RoundMode} {q : Q} (h : q - q.floor < 1 / 2) : roundQ mode q = q.floor := if_pos h

theorem roundQ_of_half_lt {mode : RoundMode} {q : Q} (h : 1 / 2 < q - q.floor) : roundQ mode q = q.floor + 1 :=
  (if_neg h.not_gt).trans (if_pos h)

theorem roundQ_halfEven_of_tie {q : Q} (h : q - q.floor = 1 / 2) :
    roundQ .halfEven q = if q.floor % 2 = 0 then q.floor else q.floor + 1 :=
  (if_neg h.not_lt).trans (if_neg h.not_gt)

theorem roundQ_halfAway_of_tie {q : Q} (h : q - q.floor = 1 / 2) :
    roundQ .halfAway q = if 0 < q then q.floor + 1 else q.floor :=
  (if_neg h.not_lt).trans (if_neg h.not_gt)

/-- `q` against the half above its floor: below it, at it under each tie rule, above it. -/
theorem isRound_roundQ (mode : RoundMode) (q : Q) : IsRound mode q (roundQ mode q) := by
  have hfloor : (q.floor : Q) ≤ q := Rat.floor_le q
  have hlt : q < (q.floor : Q) + 1 := by exact_mod_cast Rat.lt_floor_add_one q
  rcases lt_trichotomy (q - q.floor) (1 / 2) with h | h | h
  · rw [roundQ_of_lt_half h]
    exact isRound_of_lt_half h (by linarith)
  · cases mode with
    | halfEven =>
      rw [roundQ_halfEven_of_tie h]
      split_ifs with heven
      · exact isRound_halfEven h.le (by linarith) heven
      · exact isRound_halfEven (by push_cast; linarith) (by push_cast; linarith) (by omega)
    | halfAway =>
      rw [roundQ_halfAway_of_tie h]
      split_ifs with hpos
      · exact isRound_halfAway (by push_cast; linarith) (by push_cast; linarith) (fun _ => by push_cast; linarith)
          (fun hneg => absurd hneg hpos.asymm)
      · exact isRound_halfAway h.le (by linarith) (fun hpos' => absurd hpos' hpos) (fun _ => by linarith)
  · rw [roundQ_of_half_lt h]
    exact isRound_of_lt_half (by push_cast; linarith) (by push_cast; linarith)

/-- The rounded integer keeps a bound on the number's size. -/
theorem roundQ_bounds (mode : RoundMode) {q : Q} {n : Int} (hlow : -(n : Q) ≤ q) (hhigh : q ≤ n) :
    -n ≤ roundQ mode q ∧ roundQ mode q ≤ n :=
  ⟨(isRound_roundQ mode q).le_round_of_le (by exact_mod_cast hlow), (isRound_roundQ mode q).round_le_of_le hhigh⟩

/-- Settles O25: `roundQ` is a nearest integer by the tie rule, and there is only one. -/
theorem roundIsTheNearestInteger : Obligations.RoundIsTheNearestInteger := fun mode q =>
  ⟨isRound_roundQ mode q, fun _ hr => hr.unique (isRound_roundQ mode q)⟩

end Sys2Proof.Claims
end

section
/-!
PROOFS. What the field transforms answer, one rule per operation, and their codes as numbers: narrowing is reduction modulo
the width (R12).
-/

namespace Sys2Proof.Machine

open Sys2Proof.Claims

/-! ## Answers -/

theorem answers_unpack24 (s : State) (b : Vector Byte 3) : Answers s (.unpack24 b) 0x00 (.u24 (unpack24 b)) := rfl

theorem answers_encLat (s : State) (deg : Q) : Answers s (.encLat deg) 0x00 (.u24 (encLat s.cfg.roundMode deg)) := rfl

theorem answers_encLon (s : State) (deg : Q) : Answers s (.encLon deg) 0x00 (.u24 (encLon s.cfg.roundMode deg)) := rfl

theorem answers_decLatLon (s : State) (raw : UInt24) : Answers s (.decLatLon raw) 0x00 (.rational (decLatLon raw)) := rfl

theorem answers_encAlt (s : State) (ft : Option Q) : Answers s (.encAlt ft) 0x00 (.u12 (encAlt s.cfg.roundMode ft)) := rfl

theorem answers_decAlt (s : State) (raw : UInt12) : Answers s (.decAlt raw) 0x00 (.optInt (decAlt raw)) := rfl

theorem answers_encGs (s : State) (kt : Option (BitVec 16)) : Answers s (.encGs kt) 0x00 (.u12 (encGs kt)) := rfl

theorem answers_decGs (s : State) (raw : UInt12) : Answers s (.decGs raw) 0x00 (.optU12 (decGs raw)) := rfl

theorem answers_encVs (s : State) (fpm : Option (BitVec 32)) :
    Answers s (.encVs fpm) 0x00 (.u12 (encVs s.cfg.roundMode fpm)) := rfl

theorem answers_decVs (s : State) (raw : UInt12) : Answers s (.decVs raw) 0x00 (.optInt (decVs raw)) := rfl

theorem answers_encTrk (s : State) (deg : Q) : Answers s (.encTrk deg) 0x00 (.byte (encTrk s.cfg.roundMode deg)) := rfl

theorem answers_decTrk (s : State) (raw : Byte) : Answers s (.decTrk raw) 0x00 (.rational (decTrk raw)) := rfl

theorem answers_encCs (s : State) (cs : CallsignIn) : Answers s (.encCs cs) 0x00 (.bytes (encCs cs)) := rfl

theorem answers_decCs (s : State) (b : Vector Byte 8) : Answers s (.decCs b) 0x00 (.callsign (decCs b.toList)) := rfl

theorem answers_packNib (s : State) (hi lo : UInt4) : Answers s (.packNib hi lo) 0x00 (.byte (packNib hi lo)) := rfl

theorem answers_unpackNib (s : State) (b : Byte) :
    Answers s (.unpackNib b) 0x00 (.nibbles (b.extractLsb' 4 4) (b.extractLsb' 0 4)) := rfl

theorem answers_pack24_of_ok {s : State} {v : BitVec 32} {b : Bytes} (h : pack24 v = .ok b) :
    Answers s (.pack24 v) 0x00 (.bytes b) :=
  (answers_ok_iff rfl).mpr (map_bytes_eq_ok.mpr h)

theorem answers_pack24_of_error {s : State} {v : BitVec 32} {e : ProtocolError} (h : pack24 v = .error e) :
    Answers s (.pack24 v) (statusOf e) (infoOf e) :=
  answers_of_error rfl (map_bytes_eq_error.mpr h)

/-! ## Codes as numbers -/

/-- `r mod 2^n` (R12). -/
theorem toNat_ofInt_eq_emod (n : Nat) (r : Int) : ((BitVec.ofInt n r).toNat : Int) = r % 2 ^ n := by
  have hpow : (0 : Int) < 2 ^ n := by positivity
  rw [BitVec.toNat_ofInt, Int.toNat_of_nonneg (by exact_mod_cast Int.emod_nonneg r hpow.ne')]
  push_cast
  rfl

/-- A 24-bit code read as a signed number (R12). -/
theorem toInt24_eq (raw : UInt24) :
    raw.toInt = if raw.toNat < 2 ^ 23 then (raw.toNat : Int) else (raw.toNat : Int) - 2 ^ 24 := by
  rw [BitVec.toInt_eq_toNat_cond]
  split_ifs <;> omega

/-- A 12-bit code read as a signed number (R12). -/
theorem toInt12_eq (raw : UInt12) :
    raw.toInt = if raw.toNat < 2048 then (raw.toNat : Int) else (raw.toNat : Int) - 4096 := by
  rw [BitVec.toInt_eq_toNat_cond]
  split_ifs <;> omega

end Sys2Proof.Machine
end

section
/-!
PROOFS. Latitude and longitude (R174 to R176).
-/

namespace Sys2Proof.Machine

open Sys2Proof.Claims

theorem encLat_eq (mode : RoundMode) (deg : Q) :
    encLat mode deg = BitVec.ofInt 24 (roundQ mode (max (-90) (min deg 90) * 2 ^ 23 / 180)) := by
  rw [encLat, clampQ_eq _ _ _ (by norm_num)]

theorem encLon_eq (mode : RoundMode) (deg : Q) :
    encLon mode deg = BitVec.ofInt 24 (roundQ mode (max (-180) (min deg 180) * 2 ^ 23 / 180)) := by
  rw [encLon, clampQ_eq _ _ _ (by norm_num)]

/-- An angle clamped to ±`a` is within ±`a`. -/
theorem clamped_bounds (a x : Q) (ha : 0 ≤ a) : -a ≤ max (-a) (min x a) ∧ max (-a) (min x a) ≤ a :=
  ⟨le_max_left _ _, max_le (by linarith) (min_le_right _ _)⟩

/-- Settles O26: the code is `roundQ` narrowed, and the clamped latitude is ±2^22 steps at most. -/
theorem encLatQuantizesTheClampedLatitude : Obligations.EncLatQuantizesTheClampedLatitude := by
  intro s deg
  obtain ⟨hlow, hhigh⟩ := clamped_bounds 90 deg (by norm_num)
  obtain ⟨hmin, hmax⟩ := roundQ_bounds s.cfg.roundMode (q := max (-90) (min deg 90) * 2 ^ 23 / 180) (n := 2 ^ 22)
    (by push_cast; linarith) (by push_cast; linarith)
  exact ⟨_, isRound_roundQ _ _, hmin, hmax, _, toNat_ofInt_eq_emod 24 _, encLat_eq _ deg ▸ answers_encLat s deg⟩

/-- From 180 − 90/2^23 up the nearest step is 2^23: at the half itself it is the even one, and the one away from 0 (R175). -/
theorem isRound_lon_near_180 (mode : RoundMode) {deg : Q} (h : 180 - 90 / 2 ^ 23 ≤ deg) :
    IsRound mode (max (-180) (min deg 180) * 2 ^ 23 / 180) (2 ^ 23) := by
  have hlow : 180 - 90 / 2 ^ 23 ≤ max (-180) (min deg 180) := le_max_of_le_right (le_min h (by norm_num))
  obtain ⟨-, hhigh⟩ := clamped_bounds 180 deg (by norm_num)
  generalize max (-180) (min deg 180) = x at hlow hhigh
  rcases hlow.lt_or_eq with hlt | rfl
  · exact isRound_of_lt_half (by push_cast; linarith) (by push_cast; linarith)
  · cases mode with
    | halfEven => exact isRound_halfEven (by norm_num) (by norm_num) (by decide)
    | halfAway => exact isRound_halfAway (by norm_num) (by norm_num) (by norm_num) (by norm_num)

/-- Settles O27: as the latitude, with ±2^23 steps; near 180 the rounded integer is 2^23 by uniqueness. -/
theorem encLonQuantizesTheClampedLongitude : Obligations.EncLonQuantizesTheClampedLongitude := by
  intro s deg
  constructor
  · obtain ⟨hlow, hhigh⟩ := clamped_bounds 180 deg (by norm_num)
    obtain ⟨hmin, hmax⟩ := roundQ_bounds s.cfg.roundMode (q := max (-180) (min deg 180) * 2 ^ 23 / 180) (n := 2 ^ 23)
      (by push_cast; linarith) (by push_cast; linarith)
    exact ⟨_, isRound_roundQ _ _, hmin, hmax, _, toNat_ofInt_eq_emod 24 _, encLon_eq _ deg ▸ answers_encLon s deg⟩
  · intro h
    have hcode : encLon s.cfg.roundMode deg = 0x800000 := by
      rw [encLon_eq, (isRound_roundQ _ _).unique (isRound_lon_near_180 _ h)]
      rfl
    exact hcode ▸ answers_encLon s deg

/-- Settles O28: the answer is the signed code times 180/2^23, and a signed 24-bit code is within ±2^23. -/
theorem decLatLonIsTheExactAngle : Obligations.DecLatLonIsTheExactAngle := by
  intro s raw
  have hlow : (-(2 ^ 23) : Q) ≤ raw.toInt := by exact_mod_cast raw.le_toInt
  have hhigh : (raw.toInt : Q) < 2 ^ 23 := by exact_mod_cast raw.toInt_lt
  refine ⟨_, answers_decLatLon s raw, ?_, ?_, ?_⟩
  · rw [decLatLon, div_mul_cancel₀ _ (by norm_num), toInt24_eq]
    push_cast
    rfl
  · rw [decLatLon]; linarith
  · rw [decLatLon]; linarith

end Sys2Proof.Machine
end

section
/-!
PROOFS. Altitude, ground speed, vertical speed and track (R177 to R184).
-/

namespace Sys2Proof.Machine

open Sys2Proof.Claims

/-- The clamp to 0..0xFFE comes before the narrowing to 12 bits, which therefore loses nothing (R177). -/
theorem toNat_encAlt_some (mode : RoundMode) (ft : Q) :
    ((encAlt mode (some ft)).toNat : Int) = max 0 (min (roundQ mode ((ft + 1000) / 25)) 0xFFE) := by
  rw [encAlt, toNat_ofInt_eq_emod, clampInt_eq _ _ _ (by decide)]
  omega

/-- Settles O29: the code is the clamped integer, which is below the sentinel. -/
theorem encAltRoundsThenClamps : Obligations.EncAltRoundsThenClamps := by
  refine fun s => ⟨answers_encAlt s none, fun ft => ?_⟩
  have hcode := toNat_encAlt_some s.cfg.roundMode ft
  refine ⟨_, _, isRound_roundQ _ _, hcode, fun h => ?_, answers_encAlt s (some ft)⟩
  have hsentinel : (encAlt s.cfg.roundMode (some ft)).toNat = 0xFFF := congrArg BitVec.toNat h
  omega

/-- The clamp to 0xFFE comes before the narrowing to 12 bits, which therefore loses nothing (R179). -/
theorem toNat_encGs_some (kt : BitVec 16) : (encGs (some kt)).toNat = min kt.toNat 0xFFE := by
  rw [encGs, BitVec.toNat_ofNat]
  omega

/-- Settles O31: no speed is the sentinel, and the code of a speed is the clamped speed. -/
theorem encGsClampsToTheLargestCode : Obligations.EncGsClampsToTheLargestCode := fun s =>
  ⟨answers_encGs s none, fun kt => ⟨_, toNat_encGs_some kt, answers_encGs s (some kt)⟩⟩

theorem encVs_some_eq (mode : RoundMode) (v : BitVec 32) :
    encVs mode (some v) = BitVec.ofInt 12 (roundQ mode (((max (-32576) (min v.toInt 32576) : Int) : Q) / 64)) := by
  rw [encVs, clampInt_eq _ _ _ (by decide)]

/-- Settles O32: the saturated speed is ±509 units at most, and no such integer is 0x800 modulo 4096. -/
theorem encVsSaturatesThenRounds : Obligations.EncVsSaturatesThenRounds := by
  refine fun s => ⟨answers_encVs s none, fun v => ?_⟩
  have hcode := encVs_some_eq s.cfg.roundMode v
  have hlow : -32576 ≤ max (-32576) (min v.toInt 32576) := by omega
  have hhigh : max (-32576) (min v.toInt 32576) ≤ 32576 := by omega
  generalize max (-32576) (min v.toInt 32576) = x at hcode hlow hhigh ⊢
  have hlowQ : (-32576 : Q) ≤ x := by exact_mod_cast hlow
  have hhighQ : (x : Q) ≤ 32576 := by exact_mod_cast hhigh
  obtain ⟨hmin, hmax⟩ := roundQ_bounds s.cfg.roundMode (q := (x : Q) / 64) (n := 509)
    (by push_cast; linarith) (by push_cast; linarith)
  have hnat := toNat_ofInt_eq_emod 12 (roundQ s.cfg.roundMode ((x : Q) / 64))
  rw [← hcode] at hnat
  refine ⟨_, _, isRound_roundQ _ _, hmin, hmax, hnat, fun h => ?_, answers_encVs s (some v)⟩
  have hsentinel : (encVs s.cfg.roundMode (some v)).toNat = 0x800 := congrArg BitVec.toNat h
  omega

/-- Settles O33: the code is `roundQ` narrowed to 8 bits. -/
theorem encTrkRoundsModulo256 : Obligations.EncTrkRoundsModulo256 := fun s deg =>
  ⟨_, _, isRound_roundQ _ _, toNat_ofInt_eq_emod 8 _, answers_encTrk s deg⟩

theorem decAlt_of_ne {raw : UInt12} (h : raw ≠ 0xFFF) : decAlt raw = some ((raw.toNat : Int) * 25 - 1000) := if_neg h

theorem decGs_of_ne {raw : UInt12} (h : raw ≠ 0xFFF) : decGs raw = some raw := if_neg h

theorem decVs_of_ne {raw : UInt12} (h : raw ≠ 0x800) :
    decVs raw = some ((if raw.toNat < 2048 then (raw.toNat : Int) else (raw.toNat : Int) - 4096) * 64) := by
  rw [decVs, if_neg h, toInt12_eq]

/-- DEC_TRK is in [0, 360), as a byte is below 256 (R184). -/
theorem decTrk_bounds (raw : Byte) : 0 ≤ decTrk raw ∧ decTrk raw < 360 := by
  have hlow : (0 : Q) ≤ raw.toNat := raw.toNat.cast_nonneg
  have hhigh : (raw.toNat : Q) < 256 := by exact_mod_cast raw.isLt
  rw [decTrk]
  constructor <;> linarith

/-- Settles O30: each decoder's answer, at its sentinel and elsewhere. -/
theorem codesDecodeToTheirNumbers : Obligations.CodesDecodeToTheirNumbers := fun s raw trk =>
  ⟨answers_decAlt s 0xFFF, fun h => decAlt_of_ne h ▸ answers_decAlt s raw,
    answers_decGs s 0xFFF, fun h => decGs_of_ne h ▸ answers_decGs s raw,
    answers_decVs s 0x800, fun h => decVs_of_ne h ▸ answers_decVs s raw,
    _, answers_decTrk s trk, div_mul_cancel₀ _ (by norm_num), decTrk_bounds trk⟩

end Sys2Proof.Machine
end

section
/-!
PROOFS. The callsign field (R185, R186).
-/

namespace Sys2Proof.Machine

open Sys2Proof.Claims

/-- Truncated to 8 characters or padded to 8 (R185). -/
theorem length_encCs (cs : CallsignIn) : (encCs cs).length = 8 := by
  simp only [encCs, List.length_append, List.length_map, List.length_take, List.length_replicate]
  omega

/-- A place of the field: the callsign's character there, or a space past its end (R185). -/
theorem encCs_getElem? (cs : CallsignIn) {i : Nat} (h : i < 8) :
    (encCs cs)[i]? = some (match cs[i]? with | some c => c.setWidth 8 | none => 0x20) := by
  rcases Nat.lt_or_ge i cs.length with hi | hi
  · simp [encCs, h, hi]
  · simp [encCs, h, hi]

/-- Settles O34: the length, and the field place by place. -/
theorem encCsTruncatesOrPads : Obligations.EncCsTruncatesOrPads := fun s cs =>
  ⟨_, answers_encCs s cs, length_encCs cs, fun i h => by
    rw [List.getD_eq_getElem?_getD, encCs_getElem? cs h]; rfl⟩

theorem callChar_eq (x : Byte) :
    callChar x = if x.toNat ≤ 0x7F then .ascii (x.setWidth 7) else .replacement := by
  rw [BitVec.setWidth_eq_extractLsb' (by decide), callChar]

theorem rtakeWhile_beq_eq_replicate (c : CallChar) (t : CallsignOut) :
    t.rtakeWhile (fun x => x == c) = List.replicate (t.rtakeWhile fun x => x == c).length c :=
  List.eq_replicate_of_mem fun _ hx => beq_iff_eq.mp (List.mem_rtakeWhile_imp (p := fun x => x == c) hx)

/-- What is stripped is spaces, and all of it stood at the end (R186). -/
theorem eq_stripTrailing_append (t : CallsignOut) : ∃ n, t = stripTrailing t ++ List.replicate n (.ascii 0x20) :=
  ⟨_, rtakeWhile_beq_eq_replicate (.ascii 0x20) t ▸ List.rdropWhile_append_rtakeWhile.symm⟩

/-- No trailing space is left (R186). -/
theorem getLast?_stripTrailing_ne (t : CallsignOut) : (stripTrailing t).getLast? ≠ some (.ascii 0x20) := by
  intro h
  obtain ⟨hne, hlast⟩ := List.mem_getLast?_eq_getLast h
  exact List.rdropWhile_last_not _ _ hne (beq_iff_eq.mpr hlast.symm)

/-- Settles O35: the answer is the bytes read as characters, with `stripTrailing`'s two properties. -/
theorem decCsStripsTrailingSpacesOnly : Obligations.DecCsStripsTrailingSpacesOnly := by
  intro s b
  simp only [← callChar_eq]
  exact ⟨_, answers_decCs s b, eq_stripTrailing_append _, getLast?_stripTrailing_ne _⟩

end Sys2Proof.Machine
end

section
/-!
PROOFS. Fields packed into bytes: nibble pairs (R187, R188) and 24-bit numbers (R172, R173).
-/

namespace Sys2Proof.Machine

open Sys2Proof.Claims

theorem toNat_packNib (hi lo : UInt4) : (packNib hi lo).toNat = hi.toNat * 16 + lo.toNat :=
  toNat_append_eq_mul_add hi lo

theorem answers_unpackNib_packNib (s : State) (hi lo : UInt4) :
    Answers s (.unpackNib (packNib hi lo)) 0x00 (.nibbles hi lo) := by
  have h := answers_unpackNib s (packNib hi lo)
  rwa [packNib, BitVec.extractLsb'_append_eq_left, BitVec.extractLsb'_append_eq_right] at h

/-- Settles O37: packing as a number, reading back what was packed, and the two nibbles of a byte as numbers. -/
theorem nibblePairsRoundTrip : Obligations.NibblePairsRoundTrip := by
  refine fun s => ⟨fun hi lo => ⟨_, toNat_packNib hi lo, answers_packNib s hi lo, answers_unpackNib_packNib s hi lo⟩,
    fun b => ⟨_, _, ?_, ?_, answers_unpackNib s b⟩⟩
  · have := b.isLt
    rw [BitVec.extractLsb'_toNat, Nat.shiftRight_eq_div_pow]
    omega
  · rw [BitVec.extractLsb'_toNat, Nat.shiftRight_zero]

theorem pack24_of_gt {v : BitVec 32} (h : 0xFFFFFF < v.toNat) : pack24 v = .error .invalidAddress := if_pos h

theorem pack24_of_le {v : BitVec 32} (h : v.toNat ≤ 0xFFFFFF) : pack24 v = .ok (be24 (v.setWidth 24)) :=
  if_neg (Nat.not_lt.mpr h)

/-- Three bytes as a number, the first one highest (R173). -/
theorem toNat_unpack24 (b0 b1 b2 : Byte) :
    (unpack24 #v[b0, b1, b2]).toNat = b0.toNat * 65536 + b1.toNat * 256 + b2.toNat := by
  have h : unpack24 #v[b0, b1, b2] = b0 ++ b1 ++ b2 := rfl
  rw [h, toNat_append_eq_mul_add, toNat_append_eq_mul_add]
  omega

/-- UNPACK24 reads the three bytes `be24` writes (R14). -/
theorem unpack24_bytes (v : UInt24) :
    unpack24 #v[v.extractLsb' 16 8, v.extractLsb' 8 8, v.extractLsb' 0 8] = v :=
  append_thirds24 v

/-- Settles O38: above 24 bits the error; else the three bytes of the number, which UNPACK24 reads as that number. -/
theorem pack24RejectsAndUnpack24Inverts : Obligations.Pack24RejectsAndUnpack24Inverts := by
  refine fun s => ⟨fun v h => answers_pack24_of_error (pack24_of_gt h), fun v h => ?_,
    fun b0 b1 b2 => ⟨_, toNat_unpack24 b0 b1 b2, answers_unpack24 s _⟩⟩
  have hbytes := unpack24_bytes (v.setWidth 24)
  refine ⟨_, _, _, ?_, answers_pack24_of_ok (pack24_of_le h), (answers_unpack24 s _).trans (by rw [hbytes])⟩
  rw [← toNat_unpack24, hbytes, BitVec.toNat_setWidth, Nat.mod_eq_of_lt (by omega)]

end Sys2Proof.Machine
end

section
/-!
PROOFS. What the message codec's operations answer, from the outcome each computes (R300, R302).
-/

namespace Sys2Proof.Machine

open Sys2Proof.Claims

theorem map_message_eq_error {x : Except ProtocolError DecodedMessage} {e : ProtocolError} :
    x.map Result.message = .error e ↔ x = .error e := by
  cases x <;> simp [Except.map]

/-- An operation whose outcome is bytes answers them. -/
theorem answers_bytes_of_ok {s : State} {i : Instr} {x : Except ProtocolError Bytes} {b : Bytes}
    (h : exec i s = .next (s.answer (x.map .bytes))) (hx : x = .ok b) : Answers s i 0x00 (.bytes b) :=
  (answers_ok_iff h).mpr (map_bytes_eq_ok.mpr hx)

/-- The same operation with an error as its outcome answers the error's response. -/
theorem answers_bytes_of_error {s : State} {i : Instr} {x : Except ProtocolError Bytes} {e : ProtocolError}
    (h : exec i s = .next (s.answer (x.map .bytes))) (hx : x = .error e) : Answers s i (statusOf e) (infoOf e) :=
  answers_of_error h (map_bytes_eq_error.mpr hx)

theorem exec_unwrap (w : Bytes) (s : State) :
    exec (.unwrap w) s = .next (s.answer ((unwrap s.cfg.crcForm w).map .bytes)) := rfl

theorem exec_msgEncOwn (m : OwnshipReport) (s : State) :
    exec (.msgEncOwn m) s = .next (s.answer ((msgEncOwn s.cfg.roundMode m).map .bytes)) := rfl

theorem exec_msgEncTraf (m : TrafficReport) (s : State) :
    exec (.msgEncTraf m) s = .next (s.answer ((msgEncTraf s.cfg.roundMode m).map .bytes)) := rfl

theorem exec_msgDec (p : Bytes) (s : State) : exec (.msgDec p) s = .next (s.answer ((msgDec p).map .message)) := rfl

theorem exec_encodeFrame (m : Message) (s : State) :
    exec (.encodeFrame m) s = .next (s.answer ((encodeFrame s.cfg m).map .bytes)) := rfl

theorem exec_decodeFrame (w : Bytes) (s : State) :
    exec (.decodeFrame w) s = .next (s.answer ((decodeFrame s.cfg.crcForm w).map .message)) := rfl

theorem answers_msgDec_ok_iff {s : State} {p : Bytes} {m : DecodedMessage} :
    Answers s (.msgDec p) 0x00 (.message m) ↔ msgDec p = .ok m :=
  (answers_ok_iff (exec_msgDec p s)).trans map_message_eq_ok

theorem answers_msgDec_of_error {s : State} {p : Bytes} {e : ProtocolError} (h : msgDec p = .error e) :
    Answers s (.msgDec p) (statusOf e) (infoOf e) :=
  answers_of_error (exec_msgDec p s) (map_message_eq_error.mpr h)

end Sys2Proof.Machine
end

section
/-!
PROOFS. Fields that share a byte, place by place (R14, R92): what packing writes, what unpacking reads, and the bytes of a
slice.
-/

namespace Sys2Proof.Machine

open Sys2Proof.Claims

/-- Bits that straddle a concatenation: the low bits of its high part, then the high bits of its low part. -/
theorem extractLsb'_append_straddle {m i j : Nat} (k : Nat) (x : BitVec m) (y : BitVec (i + j)) :
    (x ++ y).extractLsb' i (k + j) = x.extractLsb' 0 k ++ y.extractLsb' i j := by
  ext l hl
  simp only [BitVec.getElem_append, BitVec.getElem_extractLsb', BitVec.getLsbD_append]
  by_cases h : l < j
  · rw [dif_pos h, if_pos (by omega)]
  · rw [dif_neg h, if_neg (by omega)]
    congr 1
    omega

/-- A 12-bit and a 4-bit field in two bytes (R92's bytes 11..12). -/
theorem be16_append (x : UInt12) (y : UInt4) : be16 (x ++ y) = [x.extractLsb' 4 8, x.extractLsb' 0 4 ++ y] := by
  have hlow : (x ++ y).extractLsb' 0 8 = x.extractLsb' 0 4 ++ y := by
    rw [extractLsb'_append_straddle (i := 0) (j := 4) 4 x y, BitVec.extractLsb'_eq_self]
  rw [be16, hlow, BitVec.extractLsb'_append_eq_of_le (by decide)]

/-- Two 12-bit fields in three bytes (R92's bytes 14..16). -/
theorem be24_append (x y : UInt12) :
    be24 (x ++ y) = [x.extractLsb' 4 8, x.extractLsb' 0 4 ++ y.extractLsb' 8 4, y.extractLsb' 0 8] := by
  have hmid : (x ++ y).extractLsb' 8 8 = x.extractLsb' 0 4 ++ y.extractLsb' 8 4 :=
    extractLsb'_append_straddle (i := 8) (j := 4) 4 x y
  rw [be24, hmid, BitVec.extractLsb'_append_eq_of_le (by decide), BitVec.extractLsb'_append_eq_of_add_le (by decide)]

/-- Narrowing an address drops no bit of the three bytes that are written. -/
theorem be24_setWidth (a : BitVec 32) :
    be24 (a.setWidth 24) = [a.extractLsb' 16 8, a.extractLsb' 8 8, a.extractLsb' 0 8] := by
  rw [be24, BitVec.extractLsb'_setWidth_of_le (by decide), BitVec.extractLsb'_setWidth_of_le (by decide),
    BitVec.extractLsb'_setWidth_of_le (by decide)]

/-- The high 12 bits of two bytes (R92's bytes 11..12). -/
theorem rdBe16_high12 (p : Bytes) (i : Nat) :
    (rdBe16 p i).extractLsb' 4 12 = byteAt p i ++ (byteAt p (i + 1)).extractLsb' 4 4 := by
  rw [rdBe16, extractLsb'_append_straddle (i := 4) (j := 4) 8, BitVec.extractLsb'_eq_self]

theorem rdBe16_low4 (p : Bytes) (i : Nat) : (rdBe16 p i).extractLsb' 0 4 = (byteAt p (i + 1)).extractLsb' 0 4 :=
  BitVec.extractLsb'_append_eq_of_add_le (by decide)

/-- The high 12 bits of three bytes (R92's bytes 14..16). -/
theorem rdBe24_high12 (p : Bytes) (i : Nat) :
    (rdBe24 p i).extractLsb' 12 12 = byteAt p i ++ (byteAt p (i + 1)).extractLsb' 4 4 := by
  rw [rdBe24, BitVec.extractLsb'_append_eq_of_le (by decide)]
  exact rdBe16_high12 p i

/-- The low 12 bits of three bytes (R92's bytes 14..16). -/
theorem rdBe24_low12 (p : Bytes) (i : Nat) :
    (rdBe24 p i).extractLsb' 0 12 = (byteAt p (i + 1)).extractLsb' 0 4 ++ byteAt p (i + 2) := by
  rw [rdBe24, extractLsb'_append_straddle (i := 0) (j := 8) 4, BitVec.extractLsb'_eq_self,
    BitVec.extractLsb'_append_eq_of_add_le (by decide)]

/-- A slice within the string is the bytes at its places (R13). -/
theorem slice_eq_map_byteAt {p : Bytes} {i j : Nat} (h : j ≤ p.length) :
    slice p i j = (List.range' i (j - i)).map (byteAt p) := by
  apply List.ext_getElem
  · simp [slice, h]
  · intro n hn hn'
    simp only [slice, List.length_drop, List.length_take] at hn
    have : i + n < p.length := by omega
    simp [slice, byteAt, this]

end Sys2Proof.Machine
end

section
/-!
PROOFS. MSG_DEC: its checks in R236's order, and that a kind's decoder reads nothing past the kind's fixed length (R241).
-/

namespace Sys2Proof.Machine

open Sys2Proof.Claims

/-! ## The checks (R236) -/

theorem payloadKindOf_eq_none {id : Byte} (h0 : id ≠ 0x00) (h1 : id ≠ 0x0A) (h2 : id ≠ 0x14) :
    payloadKindOf id = none := by
  rw [payloadKindOf, if_neg h0, if_neg h1, if_neg h2]

theorem msgDec_unknownKind {id : Byte} (h : payloadKindOf id = none) (p : Bytes) :
    msgDec (id :: p) = .error (.unknownKind id (id :: p)) := by
  simp only [msgDec, classifyPayload, h]

/-- Past the check of byte 0, MSG_DEC is the length check and the kind's decoder. -/
theorem msgDec_known {id : Byte} {k : PayloadKind} {p : Bytes} (hp : p.head? = some id) (hk : payloadKindOf id = some k) :
    msgDec p = decodePayloadAs k p := by
  obtain ⟨rest, rfl⟩ := List.head?_eq_some_iff.mp hp
  by_cases hlen : (id :: rest).length < payloadNeed k <;>
    simp only [msgDec, classifyPayload, hk, decodePayloadAs, hlen, if_true, if_false]

theorem decodePayloadAs_short {k : PayloadKind} {p : Bytes} (h : p.length < payloadNeed k) :
    decodePayloadAs k p = .error .truncated := if_pos h

theorem decodePayloadAs_long {k : PayloadKind} {p : Bytes} (h : payloadNeed k ≤ p.length) :
    decodePayloadAs k p = .ok (decodeKind k p) := if_neg (Nat.not_lt.mpr h)

/-! ## Bytes past the fixed length (R241) -/

theorem byteAt_take {p : Bytes} {n i : Nat} (h : i < n) : byteAt (p.take n) i = byteAt p i := by
  rw [byteAt, byteAt, List.getD_eq_getElem?_getD, List.getD_eq_getElem?_getD, List.getElem?_take_of_lt h]

theorem slice_take {p : Bytes} {n i j : Nat} (h : j ≤ n) : slice (p.take n) i j = slice p i j := by
  rw [slice, slice, List.take_take, Nat.min_eq_left h]

theorem bodyDec_take (p : Bytes) : bodyDec (p.take 28) = bodyDec p := by
  simp [bodyDec, rdBe16, rdBe24, byteAt_take, slice_take]

theorem decodeKind_take (k : PayloadKind) (p : Bytes) : decodeKind k (p.take (payloadNeed k)) = decodeKind k p := by
  cases k with
  | heartbeat => simp [decodeKind, payloadNeed, decHb, rdLe16, rdBe16, byteAt_take]
  | ownship => simp [decodeKind, payloadNeed, decOwn, rdBe24, byteAt_take, bodyDec_take]
  | traffic => simp [decodeKind, payloadNeed, decTraf, rdBe24, byteAt_take, bodyDec_take]

theorem payloadNeed_pos (k : PayloadKind) : 0 < payloadNeed k := by cases k <;> decide

theorem msgDec_take {id : Byte} {k : PayloadKind} {p : Bytes} (hp : p.head? = some id) (hk : payloadKindOf id = some k)
    (hlen : payloadNeed k ≤ p.length) : msgDec (p.take (payloadNeed k)) = msgDec p := by
  have hhead : (p.take (payloadNeed k)).head? = some id := by
    rw [List.head?_take, if_neg (payloadNeed_pos k).ne', hp]
  have htake : payloadNeed k ≤ (p.take (payloadNeed k)).length := by
    rw [List.length_take, Nat.min_eq_left hlen]
  rw [msgDec_known hhead hk, msgDec_known hp hk, decodePayloadAs_long htake, decodePayloadAs_long hlen, decodeKind_take]

theorem answers_msgDec_short {id : Byte} {k : PayloadKind} {p : Bytes} (s : State) (hp : p.head? = some id)
    (hk : payloadKindOf id = some k) (h : p.length < payloadNeed k) : Answers s (.msgDec p) 0x11 .noInfo :=
  answers_msgDec_of_error ((msgDec_known hp hk).trans (decodePayloadAs_short h))

theorem answers_msgDec_long {id : Byte} {k : PayloadKind} {p : Bytes} (s : State) (hp : p.head? = some id)
    (hk : payloadKindOf id = some k) (h : payloadNeed k ≤ p.length) :
    Answers s (.msgDec p) 0x00 (.message (decodeKind k p)) :=
  answers_msgDec_ok_iff.mpr ((msgDec_known hp hk).trans (decodePayloadAs_long h))

/-- A payload of a known kind: Truncated when it is short, else the kind's decoding of its first bytes (R236, R241). -/
theorem msgDec_checks_length {id : Byte} {k : PayloadKind} (hk : payloadKindOf id = some k) (s : State) {p : Bytes}
    (hp : p.head? = some id) :
    (p.length < payloadNeed k → Answers s (.msgDec p) 0x11 .noInfo) ∧
    (payloadNeed k ≤ p.length → Answers s (.msgDec p) 0x00 (.message (decodeKind k p)) ∧
      exec (.msgDec p) s = exec (.msgDec (p.take (payloadNeed k))) s) := by
  refine ⟨answers_msgDec_short s hp hk, fun hlong => ⟨answers_msgDec_long s hp hk hlong, ?_⟩⟩
  rw [exec_msgDec, exec_msgDec, msgDec_take hp hk hlong]

/-- Settles O12: byte 0 is checked first, each of the three known kinds then has its length checked, and an answer of UNWRAP
is not empty. -/
theorem msgDecChecksThenDecodes : Obligations.MsgDecChecksThenDecodes := by
  intro s
  refine ⟨answers_msgDec_of_error (e := .truncated) rfl, fun id p h0 h1 h2 => ?_, fun p hp => ?_, fun p hp => ?_,
    fun p hp => ?_, fun w hw => ?_⟩
  · exact answers_msgDec_of_error (msgDec_unknownKind (payloadKindOf_eq_none h0 h1 h2) p)
  · exact msgDec_checks_length (k := .heartbeat) rfl s hp
  · exact msgDec_checks_length (k := .ownship) rfl s hp
  · exact msgDec_checks_length (k := .traffic) rfl s hp
  · exact unwrap_ne_nil (answers_unwrap_ok_iff.mp hw) rfl

/-- DEC_HB reads R93's seven bytes (R237). -/
theorem decHb_cons (s1 b2 t0 t1 c1 c0 : Byte) (more : Bytes) :
    decHb (0x00 :: s1 :: b2 :: t0 :: t1 :: c1 :: c0 :: more) =
      .hb ⟨s1, 0#1 ++ b2.extractLsb' 0 7, b2.extractLsb' 7 1 ++ (t1 ++ t0), c1 ++ c0⟩ := rfl

/-- Settles O47: the payload is long enough for DEC_HB, and each field is the number its bits make. -/
theorem heartbeatPayloadDecodes : Obligations.HeartbeatPayloadDecodes := by
  intro s s1 b2 t0 t1 c1 c0 more
  have hlen : 7 ≤ (0x00 :: s1 :: b2 :: t0 :: t1 :: c1 :: c0 :: more).length := by
    simp only [List.length_cons]
    omega
  have h := answers_msgDec_long (k := .heartbeat) s rfl rfl hlen
  rw [decodeKind, decHb_cons] at h
  have hb2 := b2.isLt
  refine ⟨_, rfl, ?_, ?_, ?_, h⟩
  all_goals simp only [toNat_append_eq_mul_add, BitVec.extractLsb'_toNat, Nat.shiftRight_eq_div_pow, BitVec.toNat_ofNat]
  all_goals omega

end Sys2Proof.Machine
end

section
/-!
PROOFS. The 28-byte payloads MSG_ENC_OWN and MSG_ENC_TRAF write (R92, R231, R234, R235).
-/

namespace Sys2Proof.Machine

open Sys2Proof.Claims

/-! ## The layout -/

/-- Two bytes, the narrowed address and the body, as MSG_ENC_OWN and MSG_ENC_TRAF put them together, are R92's table. -/
theorem report_layout (mode : RoundMode) (id byte1 : Byte) (a : BitVec 32) (pos : Position) (vel : Velocity)
    (nic nacp : UInt4) (emit : Byte) (cs : CallsignIn) (emerg : UInt4) :
    [id, byte1] ++ be24 (a.setWidth 24) ++ bodyEnc mode pos vel nic nacp emit cs emerg =
      reportBytes id byte1 a (encLat mode pos.latitudeDeg) (encLon mode pos.longitudeDeg)
        (encAlt mode pos.altitudeFt) pos.miscIndicators nic nacp (encGs vel.groundSpeedKt)
        (encVs mode vel.verticalSpeedFpm) (encTrk mode vel.trackDeg) emit (encCs cs) emerg := by
  rw [bodyEnc, be24_setWidth, be16_append, be24_append]
  rfl

/-- The codes `bodyEnc` writes are the ones the field transforms answer (R231). -/
theorem fieldCodes_enc (s : State) (pos : Position) (vel : Velocity) (cs : CallsignIn) :
    FieldCodes s pos vel cs (encLat s.cfg.roundMode pos.latitudeDeg) (encLon s.cfg.roundMode pos.longitudeDeg)
      (encAlt s.cfg.roundMode pos.altitudeFt) (encGs vel.groundSpeedKt) (encVs s.cfg.roundMode vel.verticalSpeedFpm)
      (encTrk s.cfg.roundMode vel.trackDeg) (encCs cs) :=
  ⟨answers_encLat s _, answers_encLon s _, answers_encAlt s _, answers_encGs s _, answers_encVs s _, answers_encTrk s _,
    answers_encCs s cs, length_encCs cs⟩

/-! ## The address check -/

theorem addressTooLarge_eq_true_iff {a : BitVec 32} : addressTooLarge a = true ↔ 0xFFFFFF < a.toNat := decide_eq_true_iff

theorem msgEncOwn_wide (mode : RoundMode) {m : OwnshipReport} (h : 0xFFFFFF < m.participantAddress.toNat) :
    msgEncOwn mode m = .error .invalidAddress := if_pos (addressTooLarge_eq_true_iff.mpr h)

theorem msgEncOwn_narrow (mode : RoundMode) {m : OwnshipReport} (h : m.participantAddress.toNat ≤ 0xFFFFFF) :
    msgEncOwn mode m = .ok ([0x0A, 0x00] ++ be24 (m.participantAddress.setWidth 24) ++
      bodyEnc mode m.position m.velocity m.navIntegrity m.navAccuracy m.emitterCategory m.callsign m.emergencyCode) :=
  if_neg (mt addressTooLarge_eq_true_iff.mp (Nat.not_lt.mpr h))

theorem msgEncTraf_wide (mode : RoundMode) {m : TrafficReport} (h : 0xFFFFFF < m.participantAddress.toNat) :
    msgEncTraf mode m = .error .invalidAddress := if_pos (addressTooLarge_eq_true_iff.mpr h)

theorem msgEncTraf_narrow (mode : RoundMode) {m : TrafficReport} (h : m.participantAddress.toNat ≤ 0xFFFFFF) :
    msgEncTraf mode m = .ok ([0x14, trafficStatus m.trafficAlert m.addressType] ++
      be24 (m.participantAddress.setWidth 24) ++
      bodyEnc mode m.position m.velocity m.navIntegrity m.navAccuracy m.emitterCategory m.callsign m.emergencyCode) :=
  if_neg (mt addressTooLarge_eq_true_iff.mp (Nat.not_lt.mpr h))

/-- Byte 1 as a number: the alert in bit 4, the address type in bits 2:0, and no other bit (R235). -/
theorem toNat_trafficStatus (alert : Bool) (addressType : UInt3) :
    (trafficStatus alert addressType).toNat = (if alert then 16 else 0) + addressType.toNat := by
  simp only [trafficStatus, toNat_append_eq_mul_add, BitVec.toNat_ofBool]
  cases alert <;> simp

/-- Settles O42: the address check decides, and a payload is R92's bytes with the codes the field transforms answer. -/
theorem ownshipPayloadFollowsItsLayout : Obligations.OwnshipPayloadFollowsItsLayout := by
  refine fun s m => ⟨fun h => answers_bytes_of_error (exec_msgEncOwn m s) (msgEncOwn_wide _ h), fun h =>
    ⟨_, _, _, _, _, _, _, fieldCodes_enc s m.position m.velocity m.callsign,
      answers_bytes_of_ok (exec_msgEncOwn m s) ?_⟩⟩
  rw [msgEncOwn_narrow _ h, report_layout]

/-- Settles O43: as for an Ownship Report, with byte 1 read as a number. -/
theorem trafficPayloadFollowsItsLayout : Obligations.TrafficPayloadFollowsItsLayout := by
  refine fun s m => ⟨fun h => answers_bytes_of_error (exec_msgEncTraf m s) (msgEncTraf_wide _ h), fun h =>
    ⟨_, _, _, _, _, _, _, _, toNat_trafficStatus _ _, fieldCodes_enc s m.position m.velocity m.callsign,
      answers_bytes_of_ok (exec_msgEncTraf m s) ?_⟩⟩
  rw [msgEncTraf_narrow _ h, report_layout]

end Sys2Proof.Machine
end

section
/-!
PROOFS. The 28-byte payloads MSG_DEC reads, field by field (R92, R232, R238, R239).
-/

namespace Sys2Proof.Machine

open Sys2Proof.Claims

/-- `bodyDec`, with each field read off the bytes of R92's places. -/
theorem bodyDec_eq {p : Bytes} (h : 28 ≤ p.length) :
    bodyDec p =
      { position := ⟨decLatLon (rdBe24 p 5), decLatLon (rdBe24 p 8),
          decAlt (byteAt p 11 ++ (byteAt p 12).extractLsb' 4 4), (byteAt p 12).extractLsb' 0 4⟩
        velocity := ⟨decGs (byteAt p 14 ++ (byteAt p 15).extractLsb' 4 4),
          decVs ((byteAt p 15).extractLsb' 0 4 ++ byteAt p 16), decTrk (byteAt p 17)⟩
        navIntegrity := (byteAt p 13).extractLsb' 4 4
        navAccuracy := (byteAt p 13).extractLsb' 0 4
        emitterCategory := byteAt p 18
        callsign := decCs ((List.range' 19 8).map (byteAt p))
        emergencyCode := (byteAt p 27).extractLsb' 4 4 } := by
  have hcs : slice p 19 27 = (List.range' 19 8).map (byteAt p) := slice_eq_map_byteAt (by omega)
  rw [bodyDec, hcs, rdBe16_high12, rdBe16_low4, rdBe24_high12, rdBe24_low12]
  rfl

/-- Settles O48: the field transforms answer for the codes at R92's places, and those are the codes `bodyDec` reads. -/
theorem reportPayloadsDecodeFieldByField : Obligations.ReportPayloadsDecodeFieldByField := by
  intro s p hlen
  refine ⟨_, _, _, _, _, _, _, answers_decLatLon s _, answers_decLatLon s _, answers_decAlt s _, answers_decGs s _,
    answers_decVs s _, answers_decTrk s _, answers_decCs s _, fun hp => ?_, fun hp => ?_⟩
  · have h := answers_msgDec_long (k := .ownship) s hp rfl hlen
    rw [decodeKind, decOwn, bodyDec_eq hlen] at h
    exact h
  · have h := answers_msgDec_long (k := .traffic) s hp rfl hlen
    rw [decodeKind, decTraf, bodyDec_eq hlen] at h
    exact h

end Sys2Proof.Machine
end

section
/-!
PROOFS. Whole frames (R242, R243): ENCODE_FRAME is WRAP after the kind's encoder, DECODE_FRAME is MSG_DEC after UNWRAP.
-/

namespace Sys2Proof.Machine

open Sys2Proof.Claims

/-! ## ENCODE_FRAME -/

theorem answers_encodeFrame_of_ok {s : State} {m : Message} {p : Bytes} (h : msgEnc s.cfg.roundMode m = .ok p) :
    Answers s (.encodeFrame m) 0x00 (.bytes (wrap s.cfg.crcForm p)) :=
  answers_bytes_of_ok (exec_encodeFrame m s) (by rw [encodeFrame, h])

theorem answers_encodeFrame_of_error {s : State} {m : Message} {e : ProtocolError} (h : msgEnc s.cfg.roundMode m = .error e) :
    Answers s (.encodeFrame m) (statusOf e) (infoOf e) :=
  answers_bytes_of_error (exec_encodeFrame m s) (by rw [encodeFrame, h])

/-- The payload encoders fail in one way only (R234, R235). -/
theorem msgEnc_error {mode : RoundMode} {m : Message} {e : ProtocolError} (h : msgEnc mode m = .error e) :
    e = .invalidAddress := by
  cases m with
  | hb m => cases h
  | own m =>
    rcases Nat.lt_or_ge 0xFFFFFF m.participantAddress.toNat with ha | ha
    · exact (Except.error.inj ((msgEncOwn_wide mode ha).symm.trans h)).symm
    · cases (msgEncOwn_narrow mode ha).symm.trans h
  | traf m =>
    rcases Nat.lt_or_ge 0xFFFFFF m.participantAddress.toNat with ha | ha
    · exact (Except.error.inj ((msgEncTraf_wide mode ha).symm.trans h)).symm
    · cases (msgEncTraf_narrow mode ha).symm.trans h

/-- ENCODE_FRAME against an operation that answers the message's payload: WRAP of that payload, or the same error. -/
theorem encodeFrame_wraps_or_invalidAddress {s : State} {i : Instr} (m : Message)
    (hi : exec i s = .next (s.answer ((msgEnc s.cfg.roundMode m).map .bytes))) :
    (∃ p w, Answers s i 0x00 (.bytes p) ∧ Answers s (.wrap p) 0x00 (.bytes w) ∧
      Answers s (.encodeFrame m) 0x00 (.bytes w)) ∨
    (Answers s i 0x13 .noInfo ∧ Answers s (.encodeFrame m) 0x13 .noInfo) := by
  cases hm : msgEnc s.cfg.roundMode m with
  | ok p => exact .inl ⟨p, _, answers_bytes_of_ok hi hm, answers_wrap s p, answers_encodeFrame_of_ok hm⟩
  | error e =>
    obtain rfl := msgEnc_error hm
    exact .inr ⟨answers_bytes_of_error hi hm, answers_encodeFrame_of_error hm⟩

/-- Settles O44: a Heartbeat always has a payload; the two reports have one or the address error. -/
theorem encodeFrameIsWrapAfterMsgEnc : Obligations.EncodeFrameIsWrapAfterMsgEnc := fun s =>
  ⟨fun h => ⟨_, _, answers_msgEncHb s h, answers_wrap s _, answers_encodeFrame_of_ok (m := .hb h) rfl⟩,
    fun o => encodeFrame_wraps_or_invalidAddress (.own o) (exec_msgEncOwn o s),
    fun t => encodeFrame_wraps_or_invalidAddress (.traf t) (exec_msgEncTraf t s)⟩

/-! ## DECODE_FRAME -/

/-- With a payload from UNWRAP, DECODE_FRAME is MSG_DEC of it. -/
theorem exec_decodeFrame_of_unwrap_ok {s : State} {w p : Bytes} (h : unwrap s.cfg.crcForm w = .ok p) :
    exec (.decodeFrame w) s = exec (.msgDec p) s := by
  rw [exec_decodeFrame, exec_msgDec, decodeFrame, h]

/-- An error of UNWRAP is the whole answer of DECODE_FRAME. -/
theorem exec_decodeFrame_of_unwrap_error {s : State} {w : Bytes} {e : ProtocolError} (h : unwrap s.cfg.crcForm w = .error e) :
    exec (.decodeFrame w) s = exec (.unwrap w) s := by
  rw [exec_decodeFrame, exec_unwrap, decodeFrame, h]
  rfl

/-- UNWRAP answers no result only when it fails. -/
theorem unwrap_error_of_answers_noInfo {s : State} {w : Bytes} {st : Byte} (h : Answers s (.unwrap w) st .noInfo) :
    ∃ e, unwrap s.cfg.crcForm w = .error e := by
  cases hu : unwrap s.cfg.crcForm w with
  | error e => exact ⟨e, rfl⟩
  | ok p =>
    have hok : okResponse (.bytes p) = ⟨st, .noInfo⟩ := (answers_iff (answers_unwrap_ok_iff.mpr hu)).mp h
    cases hok

/-- UNWRAP's errors have the four framing statuses and carry no information (R301, R302). -/
theorem statusOf_unwrap_error {form : CrcForm} {w : Bytes} {e : ProtocolError} (h : unwrap form w = .error e) :
    (statusOf e = 0x01 ∨ statusOf e = 0x02 ∨ statusOf e = 0x03 ∨ statusOf e = 0x04) ∧ infoOf e = .noInfo := by
  obtain rfl | rfl | rfl | rfl := unwrap_error h <;> decide

/-- Settles O45: by the outcome of UNWRAP. -/
theorem decodeFrameIsMsgDecAfterUnwrap : Obligations.DecodeFrameIsMsgDecAfterUnwrap := by
  refine fun s w => ⟨fun p hp => exec_decodeFrame_of_unwrap_ok (answers_unwrap_ok_iff.mp hp), fun st hst => ?_, ?_⟩
  · obtain ⟨e, he⟩ := unwrap_error_of_answers_noInfo hst
    exact (exec_decodeFrame_of_unwrap_error he).trans hst
  · cases hu : unwrap s.cfg.crcForm w with
    | ok p => exact .inl ⟨p, answers_unwrap_ok_iff.mpr hu⟩
    | error e =>
      obtain ⟨hstatus, hinfo⟩ := statusOf_unwrap_error hu
      exact .inr ⟨statusOf e, hstatus, hinfo ▸ answers_unwrap_of_error hu⟩

end Sys2Proof.Machine
end

section
/-!
PROOFS. The frame reassembler (R271 to R277): FEED against a cut of the stream at its delimiters, and REASM_RESET.
-/

namespace Sys2Proof.Machine

open Sys2Proof.Claims

/-! ## Cutting at the delimiters -/

/-- The three cases of a pass of the span loop: no delimiter, exactly one, or a piece closed by the first two (R271). -/
theorem delimiter_cases (bytes : Bytes) :
    0x7E ∉ bytes ∨
    (∃ pre post, bytes = pre ++ 0x7E :: post ∧ 0x7E ∉ pre ∧ 0x7E ∉ post) ∨
    (∃ pre mid post, bytes = pre ++ 0x7E :: (mid ++ 0x7E :: post) ∧ 0x7E ∉ pre ∧ 0x7E ∉ mid) := by
  by_cases hb : 0x7E ∈ bytes
  · obtain ⟨pre, rest, rfl, hpre⟩ := List.eq_append_cons_of_mem hb
    by_cases hr : 0x7E ∈ rest
    · obtain ⟨mid, post, rfl, hmid⟩ := List.eq_append_cons_of_mem hr
      exact .inr (.inr ⟨pre, mid, post, rfl, hpre, hmid⟩)
    · exact .inr (.inl ⟨pre, rest, rfl, hpre, hr⟩)
  · exact .inl hb

theorem pieces_ne_nil (bytes : Bytes) : pieces bytes ≠ [] := List.splitOn_ne_nil _ _

theorem pieces_noise {bytes : Bytes} (h : 0x7E ∉ bytes) : pieces bytes = [bytes] := List.splitOn_eq_singleton h

/-- The bytes before the first delimiter are the first piece. -/
theorem pieces_append_cons {pre : Bytes} (post : Bytes) (h : 0x7E ∉ pre) :
    pieces (pre ++ 0x7E :: post) = pre :: pieces post :=
  List.splitOn_append_cons_self_of_not_mem h post

theorem pieces_cons (post : Bytes) : pieces (0x7E :: post) = [] :: pieces post :=
  pieces_append_cons post List.not_mem_nil

theorem openPiece_noise {bytes : Bytes} (h : 0x7E ∉ bytes) : openPiece bytes = [] := by
  rw [openPiece, pieces_noise h]
  rfl

theorem openPiece_open {pre post : Bytes} (h : 0x7E ∉ pre) (h' : 0x7E ∉ post) :
    openPiece (pre ++ 0x7E :: post) = 0x7E :: post := by
  rw [openPiece, pieces_append_cons post h, pieces_noise h']
  rfl

/-- The open piece comes after the last delimiter: what stands before an earlier one is not in it. -/
theorem openPiece_closed {pre mid : Bytes} (post : Bytes) (h : 0x7E ∉ pre) (h' : 0x7E ∉ mid) :
    openPiece (pre ++ 0x7E :: (mid ++ 0x7E :: post)) = openPiece (0x7E :: post) := by
  obtain ⟨p, ps, hp⟩ := List.exists_cons_of_ne_nil (pieces_ne_nil post)
  rw [openPiece, openPiece, pieces_append_cons _ h, pieces_append_cons post h', pieces_cons, hp]
  simp

variable (form : CrcForm)

theorem pieceItems_noise {bytes : Bytes} (h : 0x7E ∉ bytes) : pieceItems form bytes = [] := by
  rw [pieceItems, pieces_noise h]
  rfl

theorem pieceItems_open {pre post : Bytes} (h : 0x7E ∉ pre) (h' : 0x7E ∉ post) :
    pieceItems form (pre ++ 0x7E :: post) = [] := by
  rw [pieceItems, pieces_append_cons post h, pieces_noise h']
  rfl

/-- The first closed piece gives its item, unless it is empty, before those of the pieces from its closing delimiter on. -/
theorem pieceItems_closed {pre mid : Bytes} (post : Bytes) (h : 0x7E ∉ pre) (h' : 0x7E ∉ mid) :
    pieceItems form (pre ++ 0x7E :: (mid ++ 0x7E :: post)) =
      (if mid = [] then [] else [itemOf (decodeFrame form (0x7E :: (mid ++ [0x7E])))]) ++
        pieceItems form (0x7E :: post) := by
  rw [pieceItems, pieceItems, pieces_append_cons _ h, pieces_append_cons post h', pieces_cons, List.tail_cons,
    List.tail_cons, List.dropLast_cons_of_ne_nil (pieces_ne_nil post)]
  by_cases hm : mid = [] <;> simp [hm]

/-! ## FEED -/

/-- With fuel for every byte, the span loop computes the cut at the delimiters (R271 to R274): by induction on the fuel, one
closed piece a pass. -/
theorem spanLoop_eq_pieces (n : Nat) (bytes : Bytes) (out : List Item) (hn : bytes.length < n) :
    spanLoop form n bytes out = ⟨openPiece bytes, out ++ pieceItems form bytes⟩ := by
  induction n generalizing bytes out with
  | zero => exact absurd hn (Nat.not_lt_zero _)
  | succ n ih =>
    obtain h | ⟨pre, post, rfl, hpre, hpost⟩ | ⟨pre, mid, post, rfl, hpre, hmid⟩ := delimiter_cases bytes
    · rw [spanLoop_noise form n out h, openPiece_noise h, pieceItems_noise form h, List.append_nil]
    · rw [spanLoop_open form n out hpre hpost, openPiece_open hpre hpost, pieceItems_open form hpre hpost, List.append_nil]
    · have hlen : (0x7E :: post).length < n := by
        simp only [List.length_append, List.length_cons] at hn ⊢
        omega
      rw [spanLoop_closed form n out hpre hmid, ih _ _ hlen, openPiece_closed post hpre hmid,
        pieceItems_closed form post hpre hmid]
      split <;> simp

theorem scanSpans_eq_pieces (bytes : Bytes) : scanSpans form bytes = ⟨openPiece bytes, pieceItems form bytes⟩ :=
  spanLoop_eq_pieces form _ bytes [] (Nat.lt_succ_self _)

/-- What FEED leaves and answers: the open piece and the closed pieces' items, or, beyond the maximum, an empty buffer and a
BufferOverflow item after them (R275). -/
theorem feedBuffer_eq_pieces (cfg : Config) (buf chunk : Bytes) :
    feedBuffer cfg buf chunk =
      if cfg.reasmMaxBytes < (openPiece (buf ++ chunk)).length then
        ⟨[], pieceItems cfg.crcForm (buf ++ chunk) ++ [.err .bufferOverflow]⟩
      else ⟨openPiece (buf ++ chunk), pieceItems cfg.crcForm (buf ++ chunk)⟩ := by
  rw [feedBuffer, scanSpans_eq_pieces, checkOverflow]

theorem exec_feed_inRange {s : State} {k : Byte} (chunk : Bytes) (h : k.toNat < s.cfg.reasmInstances) :
    exec (.feed k chunk) s = .next ((s.setBuf k.toNat (feedBuffer s.cfg (s.buf k.toNat) chunk).buf).complete
      (.items (feedBuffer s.cfg (s.buf k.toNat) chunk).out)) :=
  execFeed_inRange chunk h

/-- Settles O50: FEED writes what the cut at the delimiters leaves, on either side of the maximum. -/
theorem feedCutsAtTheDelimiters : Obligations.FeedCutsAtTheDelimiters := by
  intro s k chunk hk
  rw [exec_feed_inRange chunk hk, feedBuffer_eq_pieces]
  split <;> rfl

/-! ## REASM_RESET -/

theorem exec_reasmReset_inRange {s : State} {k : Byte} (h : k.toNat < s.cfg.reasmInstances) :
    exec (.reasmReset k) s = .next ((s.setBuf k.toNat []).complete .unit) :=
  execReasmReset_inRange h

/-- A buffer that was emptied reads as empty; so does one that does not exist. -/
@[simp] theorem State.buf_setBuf_nil_self (s : State) (k : Nat) : (s.setBuf k []).buf k = [] := by
  rcases Nat.lt_or_ge k s.bufs.length with hk | hk
  · exact s.buf_setBuf_self [] hk
  · simp [State.buf, hk]

/-- Settles O51, field by field from the laws of `setBuf` and `complete`. -/
theorem reasmResetEmptiesOneBuffer : Obligations.ReasmResetEmptiesOneBuffer := fun s k hk =>
  ⟨_, exec_reasmReset_inRange hk, rfl, s.buf_setBuf_nil_self k.toNat, fun _ hj => s.buf_setBuf_of_ne [] hj,
    List.length_set, rfl, rfl⟩

end Sys2Proof.Machine
end

section
/-!
PROOFS. The two opcode maps (R82, R96): each operation has one op byte, a request's instruction is encoded as that request, and a
payload's instruction as that payload.
-/

namespace Sys2Proof.Machine

open Sys2Proof.Claims

/-! ## The request opcode map -/

/-- The op byte R82's table gives an operation. -/
def opcodeOf (o : Operation) : Byte := ((operationTable.find? fun row => row.2 == o).map (·.1)).getD 0x00

theorem opcodeOf_of_mem_operationTable : ∀ row ∈ operationTable, opcodeOf row.2 = row.1 := by decide

/-- An op byte selects the operation it is the op byte of, and no other. -/
theorem eq_opcodeOf_of_operationOf {op : Byte} {o : Operation} (h : operationOf op = some o) : op = opcodeOf o := by
  obtain ⟨row, hrow, rfl⟩ := Option.map_eq_some_iff.mp h
  have hop : row.1 = op := by simpa using List.find?_some hrow
  rw [opcodeOf_of_mem_operationTable row (List.mem_of_find?_eq_some hrow), hop]

theorem decodeRequest_eq_ok_iff {r : Request} {i : Instr} :
    decodeRequest r = .ok i ↔ ∃ o, operationOf r.op = some o ∧ formInstr o r.inst r.args = some i := by
  rw [decodeRequest]
  cases operationOf r.op with
  | none => simp
  | some o => cases hform : formInstr o r.inst r.args <;> simp [hform]

/-- Only FEED and REASM_RESET form their instruction from `inst` (R80). -/
theorem formInstr_inst_irrel {o : Operation} (hfeed : o ≠ .feed) (hreset : o ≠ .reasmReset) (k k' : Byte) (a : Args) :
    formInstr o k a = formInstr o k' a := by
  cases o with
  | feed => exact absurd rfl hfeed
  | reasmReset => exact absurd rfl hreset
  | _ => rfl

/-- Settles O7: an op that is not FEED's or REASM_RESET's selects neither operation, and the others do not look at `inst`. -/
theorem instIsIgnoredByOtherOperations : Obligations.InstIsIgnoredByOtherOperations := by
  intro op k k' a hfeed hreset
  simp only [decodeRequest]
  cases ho : operationOf op with
  | none => rfl
  | some o =>
    have hop := eq_opcodeOf_of_operationOf ho
    have hform : formInstr o k a = formInstr o k' a := by
      refine formInstr_inst_irrel ?_ ?_ k k' a
      · rintro rfl; exact hfeed hop
      · rintro rfl; exact hreset hop
    simp only [hform]

/-- The encoder gives a formed instruction the op byte of its operation and the operand record it was formed from. -/
theorem encode_of_formInstr {o : Operation} {k : Byte} {a : Args} {i : Instr} (h : formInstr o k a = some i) :
    encode i = .request ⟨opcodeOf o, if opcodeOf o = 0x50 ∨ opcodeOf o = 0x51 then k else 0x00, a⟩ := by
  cases o
  all_goals
    obtain ⟨x, hx, rfl⟩ := Option.map_eq_some_iff.mp h
    cases a <;> cases hx
    rfl

/-! ## The payload ID map -/

theorem decodePayload_eq_ok_iff {p : Bytes} {i : Instr} :
    decodePayload p = .ok i ↔ ∃ k, classifyPayload p = .ok k ∧ i = payloadInstr k p := by
  rw [decodePayload]
  cases classifyPayload p <;> simp [eq_comm]

theorem encode_payloadInstr (k : PayloadKind) (p : Bytes) : encode (payloadInstr k p) = .payload p := by cases k <;> rfl

/-- The ID byte of a payload kind (R96). -/
def payloadId : PayloadKind → Byte
  | .heartbeat => 0x00
  | .ownship => 0x0A
  | .traffic => 0x14

theorem payloadKindOf_eq_some_iff {id : Byte} {k : PayloadKind} : payloadKindOf id = some k ↔ id = payloadId k := by
  constructor
  · intro h
    unfold payloadKindOf at h
    split_ifs at h with h0 h1 h2
    all_goals
      cases h
      assumption
  · rintro rfl
    cases k <;> rfl

theorem isPayload_iff {id : Byte} {need : Nat} {p : Bytes} :
    isPayload id need p = true ↔ p.head? = some id ∧ need ≤ p.length := by
  simp [isPayload]

theorem wellFormed_payloadInstr (k : PayloadKind) (p : Bytes) :
    wellFormed (payloadInstr k p) = isPayload (payloadId k) (payloadNeed k) p := by cases k <;> rfl

/-- The checks of R236 pass just on the payloads of a kind that begin with its ID and reach its fixed length. -/
theorem classifyPayload_eq_ok_iff {p : Bytes} {k : PayloadKind} :
    classifyPayload p = .ok k ↔ isPayload (payloadId k) (payloadNeed k) p = true := by
  rw [isPayload_iff]
  cases p with
  | nil => simp [classifyPayload]
  | cons id rest =>
    simp only [classifyPayload, List.head?_cons, Option.some_inj, ← payloadKindOf_eq_some_iff]
    cases payloadKindOf id with
    | none => simp
    | some k' =>
      by_cases hlen : (id :: rest).length < payloadNeed k'
      · simp only [if_pos hlen, reduceCtorEq, false_iff, Option.some_inj]
        rintro ⟨rfl, hle⟩
        omega
      · simp only [if_neg hlen, Except.ok.injEq, Option.some_inj]
        exact ⟨fun h => ⟨h, h ▸ Nat.not_lt.mp hlen⟩, And.left⟩

theorem decodePayload_payloadInstr {k : PayloadKind} {p : Bytes} (h : wellFormed (payloadInstr k p) = true) :
    decodePayload p = .ok (payloadInstr k p) :=
  decodePayload_eq_ok_iff.mpr ⟨k, classifyPayload_eq_ok_iff.mpr (wellFormed_payloadInstr k p ▸ h), rfl⟩

/-! ## Both maps -/

/-- Settles O8: a request is looked up by the op byte it was given; a well-formed payload passes the checks of R236. -/
theorem decodeInvertsEncode : Obligations.DecodeInvertsEncode := by
  intro i hwf
  cases i with
  | payloadHeartbeat p => exact decodePayload_payloadInstr (k := .heartbeat) hwf
  | payloadOwnship p => exact decodePayload_payloadInstr (k := .ownship) hwf
  | payloadTraffic p => exact decodePayload_payloadInstr (k := .traffic) hwf
  | _ => rfl

/-- Settles O10: an assigned op is its operation's op byte, and the encoder writes that byte with the same record. -/
theorem encodeInvertsDecode : Obligations.EncodeInvertsDecode := by
  constructor
  · intro r i h
    obtain ⟨o, ho, hform⟩ := decodeRequest_eq_ok_iff.mp h
    rw [eq_opcodeOf_of_operationOf ho]
    exact encode_of_formInstr hform
  · intro p i h
    obtain ⟨k, -, rfl⟩ := decodePayload_eq_ok_iff.mp h
    exact encode_payloadInstr k p

/-- An instruction that is encoded as a request is bounded by its types alone (R84). -/
theorem wellFormed_of_encode_request {i : Instr} {r : Request} (h : encode i = .request r) : wellFormed i = true := by
  cases i with
  | payloadHeartbeat p => cases h
  | payloadOwnship p => cases h
  | payloadTraffic p => cases h
  | _ => rfl

/-- Settles O9: what a request decodes to is encoded as a request; what a payload decodes to has passed the checks of R236. -/
theorem decodedInstructionIsWellFormed : Obligations.DecodedInstructionIsWellFormed := by
  intro e i h
  cases e with
  | request r => exact wellFormed_of_encode_request (encodeInvertsDecode.1 r i h)
  | payload p =>
    obtain ⟨k, hk, rfl⟩ := decodePayload_eq_ok_iff.mp h
    rw [wellFormed_payloadInstr]
    exact classifyPayload_eq_ok_iff.mp hk

/-- Settles O11: each request and payload is read off the tables. -/
theorem writtenOutRequestsDecode : Obligations.WrittenOutRequestsDecode :=
  ⟨rfl, rfl, rfl, rfl, rfl, rfl, rfl, rfl, rfl, rfl, rfl, rfl, rfl⟩

end Sys2Proof.Machine
end

section
/-!
PROOFS. What a step does and what it keeps: one response a request, the configuration, the host's program, the buffers no request
names, and the buffer invariant (R34 to R36, R278).
-/

namespace Sys2Proof.Machine

open Sys2Proof.Claims

/-! ## The host's move -/

/-- Settles O1: the step hands the request to `takeRequest`, which runs what it decodes to. -/
theorem stepRunsDecodedRequest : Obligations.StepRunsDecodedRequest :=
  ⟨fun _ _ _ _ hp hd => (step_move hp).trans (takeRequest_of_decodeRequest_ok _ hd), fun _ => step_idle⟩

/-- Settles O4, field by field from the laws of `applyReset`. -/
theorem resetMoveEmptiesEveryBuffer : Obligations.ResetMoveEmptiesEveryBuffer := fun s rest hp =>
  ⟨State.applyReset { s with pending := rest }, step_move hp, List.length_replicate, State.buf_applyReset _, rfl, rfl, rfl⟩

/-! ## One response an instruction -/

/-- An instruction gives one response, and keeps the configuration and the host's program. -/
theorem exec_responds (i : Instr) (s : State) : ∃ (t : State) (resp : Response),
    exec i s = .next t ∧ t.responses = s.responses ++ [resp] ∧ t.pending = s.pending ∧ t.cfg = s.cfg := by
  obtain ⟨r, h⟩ | ⟨k, data, -, -, h⟩ | ⟨k, -, -, h⟩ := exec_cases i s <;> exact ⟨_, _, h, rfl, rfl, rfl⟩

theorem takeRequest_responds {r : Request} (hr : presentable r = true) (s : State) : ∃ (t : State) (resp : Response),
    takeRequest r s = .next t ∧ t.responses = s.responses ++ [resp] ∧ t.pending = s.pending ∧ t.cfg = s.cfg := by
  cases ho : operationOf r.op with
  | none => exact ⟨_, _, takeRequest_unassigned s (operationOf_eq_none_iff.mp ho), rfl, rfl, rfl⟩
  | some o =>
    simp only [presentable, ho] at hr
    obtain ⟨i, hform⟩ := Option.isSome_iff_exists.mp hr
    rw [takeRequest_of_decodeRequest_ok s (decodeRequest_eq_ok_iff.mpr ⟨o, ho, hform⟩)]
    exact exec_responds i s

/-- Settles O5: an unassigned op is raised, an assigned one runs its instruction; both give one response. -/
theorem eachPresentableRequestGetsOneResponse : Obligations.EachPresentableRequestGetsOneResponse := by
  intro s r rest hp hr
  obtain ⟨t, resp, hstep, hresp, hpending, hcfg⟩ := takeRequest_responds hr { s with pending := rest }
  refine ⟨t, resp, (step_move hp).trans hstep, hresp, ?_, hpending, hcfg⟩
  simp only [State.requestIndex, hresp, List.length_append, List.length_singleton]

/-- The response instruction `i` gives first from the reset state of configuration `c`. -/
def responseFromReset (i : Instr) (c : Config) : Response :=
  match exec i (State.resetWith c) with
  | .next t => t.responses.getLastD (errResponse .illegalCommand)
  | .fault _ => errResponse .illegalCommand
  | .refused _ => errResponse .illegalCommand

/-- An operation that touches no buffer gives, in every state, the response it gives at reset (R68). -/
theorem exec_of_touchesNoBuffer {i : Instr} (h : touchesNoBuffer i = true) (s : State) :
    exec i s = .next (s.respond (responseFromReset i s.cfg)) := by
  cases i with
  | feed k data => cases h
  | reasmReset k => cases h
  | _ => rfl

theorem exec_exec_of_touchesNoBuffer {i j : Instr} (hi : touchesNoBuffer i = true) (hj : touchesNoBuffer j = true)
    (s : State) : ∃ t, exec i s = .next t ∧ exec j t = .next
      { s with responses := s.responses ++ [responseFromReset i s.cfg, responseFromReset j s.cfg] } := by
  refine ⟨_, exec_of_touchesNoBuffer hi s, ?_⟩
  rw [exec_of_touchesNoBuffer hj]
  simp [State.respond]

/-- Settles O6: the response is the one given at reset, for one operation and for two in either order. -/
theorem bufferlessOperationsDependOnOperandsAlone : Obligations.BufferlessOperationsDependOnOperandsAlone := by
  intro i c hi
  refine ⟨⟨responseFromReset i c, ?_⟩, fun j hj => ⟨responseFromReset i c, responseFromReset j c, ?_⟩⟩
  · rintro s rfl
    exact exec_of_touchesNoBuffer hi s
  · rintro s rfl
    exact ⟨exec_exec_of_touchesNoBuffer hi hj s, exec_exec_of_touchesNoBuffer hj hi s⟩

/-! ## Buffers no request names -/

/-- Settles O52: the one buffer an instruction can write is the one it names, and its number does not change. -/
theorem onlyFeedAndResetWriteABuffer : Obligations.OnlyFeedAndResetWriteABuffer := by
  intro i s t hexec
  obtain ⟨r, h⟩ | ⟨k, data, hi, -, h⟩ | ⟨k, hi, -, h⟩ := exec_cases i s
  all_goals
    rw [h] at hexec
    obtain rfl := Host.Outcome.next.inj hexec
  · exact ⟨rfl, rfl, rfl, fun j hj => absurd (s.buf_respond r j) hj⟩
  · refine ⟨rfl, rfl, List.length_set, fun j hj => ⟨k, ?_, .inr ⟨data, hi⟩⟩⟩
    by_contra hne
    exact hj (s.buf_setBuf_of_ne _ (Ne.symm hne))
  · refine ⟨rfl, rfl, List.length_set, fun j hj => ⟨k, ?_, .inl hi⟩⟩
    by_contra hne
    exact hj (s.buf_setBuf_of_ne _ (Ne.symm hne))

/-- Settles O53: what FEED writes and answers is `feedBuffer` of the configuration, its own buffer and the chunk. -/
theorem feedReadsOnlyItsOwnBuffer : Obligations.FeedReadsOnlyItsOwnBuffer := by
  intro s s' t t' k chunk hcfg hbuf hlen hlen' hk ht ht'
  rw [exec_feed_inRange chunk hk] at ht
  rw [exec_feed_inRange chunk (hcfg ▸ hk), ← hcfg, ← hbuf] at ht'
  obtain rfl := Host.Outcome.next.inj ht
  obtain rfl := Host.Outcome.next.inj ht'
  constructor
  · simp
  · rw [State.buf_complete, State.buf_complete, s.buf_setBuf_self _ (hlen ▸ hk),
      s'.buf_setBuf_self _ (by rw [hlen', ← hcfg]; exact hk)]

/-! ## Cutting at any one delimiter -/

theorem pieces_append (pre post : Bytes) : pieces (pre ++ 0x7E :: post) = pieces pre ++ pieces post :=
  List.splitOn_append_cons_self pre post

/-- The open piece lies after the delimiter: what stands before it does not matter. -/
theorem openPiece_append_cons (pre post : Bytes) : openPiece (pre ++ 0x7E :: post) = 0x7E :: (pieces post).getLastD [] := by
  have hpre := List.length_pos_iff.mpr (pieces_ne_nil pre)
  have hpost := List.length_pos_iff.mpr (pieces_ne_nil post)
  have hlen : (pieces pre ++ pieces post).length ≠ 1 := by
    rw [List.length_append]
    omega
  rw [openPiece, pieces_append, if_neg hlen, List.getLastD_eq_getLast?, List.getLastD_eq_getLast?,
    List.getLast?_append_of_ne_nil _ (pieces_ne_nil post)]

/-- Either there is no delimiter, or there is a last one. -/
theorem last_delimiter_cases (bytes : Bytes) :
    0x7E ∉ bytes ∨ ∃ pre post, bytes = pre ++ 0x7E :: post ∧ 0x7E ∉ post := by
  by_cases hb : 0x7E ∈ bytes
  · obtain ⟨post, pre, hrev, hpost⟩ := List.eq_append_cons_of_mem (List.mem_reverse.mpr hb)
    refine .inr ⟨pre.reverse, post.reverse, ?_, by rwa [List.mem_reverse]⟩
    rw [← List.reverse_reverse bytes, hrev]
    simp
  · exact .inl hb

theorem openPiece_of_not_mem (pre : Bytes) {post : Bytes} (h : 0x7E ∉ post) :
    openPiece (pre ++ 0x7E :: post) = 0x7E :: post := by
  rw [openPiece_append_cons, pieces_noise h]
  rfl

/-! ## The buffer invariant -/

theorem bufferOk_nil (n : Nat) : BufferOk n [] := ⟨.inl rfl, Nat.zero_le n⟩

/-- An open piece within the maximum is a buffer as R278 item 1 says. -/
theorem bufferOk_openPiece {n : Nat} {bytes : Bytes} (hn : (openPiece bytes).length ≤ n) : BufferOk n (openPiece bytes) := by
  obtain h | ⟨pre, post, rfl, hpost⟩ := last_delimiter_cases bytes
  · rw [openPiece_noise h]
    exact bufferOk_nil n
  · rw [openPiece_of_not_mem pre hpost] at hn ⊢
    exact ⟨.inr ⟨rfl, hpost⟩, hn⟩

/-- What FEED leaves is such a buffer, whatever it found: the check of R275 empties one beyond the maximum. -/
theorem bufferOk_feedBuffer (cfg : Config) (buf chunk : Bytes) :
    BufferOk cfg.reasmMaxBytes (feedBuffer cfg buf chunk).buf := by
  rw [feedBuffer_eq_pieces]
  split
  · exact bufferOk_nil _
  · next h => exact bufferOk_openPiece (Nat.not_lt.mp h)

theorem inv_setBuf {s : State} (h : Inv s) (k : Nat) {b : Bytes} (hb : BufferOk s.cfg.reasmMaxBytes b) :
    Inv (s.setBuf k b) := by
  obtain ⟨hlegal, hlen, hbufs⟩ := h
  refine ⟨hlegal, List.length_set.trans hlen, fun b' hb' => ?_⟩
  obtain hmem | rfl := List.mem_or_eq_of_mem_set hb'
  · exact hbufs b' hmem
  · exact hb

/-- Every buffer empty is a case of the invariant. -/
theorem inv_applyReset {s : State} (h : s.cfg.Legal) : Inv s.applyReset := by
  refine ⟨h, List.length_replicate, fun b hb => ?_⟩
  obtain rfl := List.eq_of_mem_replicate hb
  exact bufferOk_nil _

theorem exec_keeps_inv {i : Instr} {s t : State} (h : Inv s) (hexec : exec i s = .next t) : Inv t := by
  obtain ⟨r, he⟩ | ⟨k, data, -, -, he⟩ | ⟨k, -, -, he⟩ := exec_cases i s
  all_goals
    rw [he] at hexec
    obtain rfl := Host.Outcome.next.inj hexec
  · exact h
  · exact inv_setBuf h k.toNat (bufferOk_feedBuffer s.cfg _ data)
  · exact inv_setBuf h k.toNat (bufferOk_nil _)

/-- Settles O59: an idle step and a raised error write no buffer, a reset empties them all, and an instruction writes at most
one, with what FEED leaves or nothing. -/
theorem stepKeepsTheBufferInvariant : Obligations.StepKeepsTheBufferInvariant := by
  intro s t h hstep
  obtain ⟨-, rfl⟩ | ⟨rest, -, rfl⟩ | ⟨r, rest, -, ⟨i, -, hexec⟩ | ⟨e, rfl⟩⟩ := step_cases hstep
  · exact h
  · exact inv_applyReset h.1
  · exact exec_keeps_inv (s := { s with pending := rest }) h hexec
  · exact h

/-- Settles O60: the reset state is a reset of itself. -/
theorem resetMeetsTheBufferInvariant : Obligations.ResetMeetsTheBufferInvariant :=
  ⟨fun c hc => inv_applyReset (s := State.resetWith c) hc, inv_applyReset (s := State.reset) (by decide)⟩

end Sys2Proof.Machine
end

section
/-!
PROOFS. FEED on a stream (R271 to R278): the loop's fuel, overflow, frames that follow one another or noise, and a stream that
comes in chunks.
-/

namespace Sys2Proof.Machine

open Sys2Proof.Claims

/-- Settles O58: with either fuel the loop computes the cut at the delimiters. -/
theorem spanLoopNeverRunsOutOfFuel : Obligations.SpanLoopNeverRunsOutOfFuel := by
  intro form n buf out hn
  rw [spanLoop_eq_pieces form n buf out hn, spanLoop_eq_pieces form _ buf out (Nat.lt_succ_self _)]

/-! ## One FEED, from what the scan finds -/

theorem exec_feed_of_scan {s : State} {k : Byte} {chunk b : Bytes} {items : List Item}
    (hk : k.toNat < s.cfg.reasmInstances) (hscan : scanSpans s.cfg.crcForm (s.buf k.toNat ++ chunk) = ⟨b, items⟩)
    (hlen : b.length ≤ s.cfg.reasmMaxBytes) :
    exec (.feed k chunk) s = .next
      { s with bufs := s.bufs.set k.toNat b, responses := s.responses ++ [⟨0x00, .items items⟩] } := by
  rw [exec_feed_inRange chunk hk, feedBuffer, hscan, checkOverflow, if_neg (Nat.not_lt.mpr hlen)]
  rfl

theorem exec_feed_of_scan_overflow {s : State} {k : Byte} {chunk b : Bytes} {items : List Item}
    (hk : k.toNat < s.cfg.reasmInstances) (hscan : scanSpans s.cfg.crcForm (s.buf k.toNat ++ chunk) = ⟨b, items⟩)
    (hlen : s.cfg.reasmMaxBytes < b.length) :
    exec (.feed k chunk) s = .next
      { s with bufs := s.bufs.set k.toNat []
               responses := s.responses ++ [⟨0x00, .items (items ++ [.err .bufferOverflow])⟩] } := by
  rw [exec_feed_inRange chunk hk, feedBuffer, hscan, checkOverflow, if_pos hlen]
  rfl

/-- Settles O57: with no further delimiter the scan keeps the whole span and finds no item; its length decides. -/
theorem overflowClearsTheBuffer : Obligations.OverflowClearsTheBuffer := by
  intro s k held more hk hbuf hheld hmore
  have hpost : 0x7E ∉ held ++ more := List.not_mem_append hheld hmore
  have hscan : scanSpans s.cfg.crcForm (s.buf k.toNat ++ more) = ⟨0x7E :: (held ++ more), []⟩ := by
    rw [hbuf]
    exact spanLoop_open s.cfg.crcForm _ [] List.not_mem_nil hpost
  have hlen : (0x7E :: (held ++ more)).length = held.length + more.length + 1 := by simp
  exact ⟨fun h => exec_feed_of_scan hk hscan (by rwa [hlen]), fun h => exec_feed_of_scan_overflow hk hscan (by rwa [hlen])⟩

/-! ## The items of a stream cut in two -/

variable (form : CrcForm)

/-- The items of closed pieces: one each, but none for an empty one (R274, R276). -/
def spanItems (l : List Bytes) : List Item :=
  (l.filter fun p => !p.isEmpty).map fun p => itemOf (decodeFrame form (0x7E :: (p ++ [0x7E])))

theorem pieceItems_eq_spanItems (bytes : Bytes) : pieceItems form bytes = spanItems form (pieces bytes).tail.dropLast := rfl

theorem spanItems_append (l l' : List Bytes) : spanItems form (l ++ l') = spanItems form l ++ spanItems form l' := by
  simp [spanItems]

/-- At a delimiter the items split: those of the pieces closed before it or by it, and those of the pieces closed after it. -/
theorem pieceItems_append_cons (pre post : Bytes) : pieceItems form (pre ++ 0x7E :: post) =
    spanItems form (pieces pre).tail ++ spanItems form (pieces post).dropLast := by
  rw [pieceItems_eq_spanItems, pieces_append, List.tail_append_of_ne_nil (pieces_ne_nil pre),
    List.dropLast_append_of_ne_nil (pieces_ne_nil post), spanItems_append]

theorem pieceItems_cons (post : Bytes) : pieceItems form (0x7E :: post) = spanItems form (pieces post).dropLast :=
  pieceItems_append_cons form [] post

theorem openPiece_cons (post : Bytes) : openPiece (0x7E :: post) = 0x7E :: (pieces post).getLastD [] :=
  openPiece_append_cons [] post

/-- Bytes before the first delimiter change nothing (R272). -/
theorem scanSpans_noise {pre : Bytes} (h : 0x7E ∉ pre) (bytes : Bytes) :
    scanSpans form (pre ++ bytes) = scanSpans form bytes := by
  rw [scanSpans_eq_pieces, scanSpans_eq_pieces]
  by_cases hb : 0x7E ∈ bytes
  · obtain ⟨pre', post, rfl, hpre'⟩ := List.eq_append_cons_of_mem hb
    have hnoise : 0x7E ∉ pre ++ pre' := List.not_mem_append h hpre'
    rw [← List.append_assoc, openPiece_append_cons, openPiece_append_cons, pieceItems_append_cons, pieceItems_append_cons,
      pieces_noise hnoise, pieces_noise hpre']
    rfl
  · have hnoise : 0x7E ∉ pre ++ bytes := List.not_mem_append h hb
    rw [openPiece_noise hnoise, openPiece_noise hb, pieceItems_noise form hnoise, pieceItems_noise form hb]

/-- At a delimiter the scan splits: what it closes up to there, then what a scan from there finds. -/
theorem scanSpans_append_cons (pre post : Bytes) : scanSpans form (pre ++ 0x7E :: post) =
    ⟨(scanSpans form (0x7E :: post)).buf, (scanSpans form (pre ++ [0x7E])).out ++ (scanSpans form (0x7E :: post)).out⟩ := by
  simp only [scanSpans_eq_pieces]
  rw [openPiece_append_cons, openPiece_cons, pieceItems_append_cons, pieceItems_append_cons form pre [], pieceItems_cons,
    List.append_assoc]
  rfl

/-- A retained buffer is its own open piece, and closes nothing (R278 item 1). -/
theorem scanSpans_bufferOk {n : Nat} {b : Bytes} (h : BufferOk n b) : scanSpans form b = ⟨b, []⟩ := by
  obtain ⟨rfl | ⟨hhead, htail⟩, -⟩ := h
  · rfl
  · obtain ⟨post, rfl⟩ := List.head?_eq_some_iff.mp hhead
    exact spanLoop_open form _ [] List.not_mem_nil htail

/-- A scan may stop after any byte and go on later from what it kept: the items come in two parts, and the same span is left
open (R278 item 2). -/
theorem scanSpans_append (a b : Bytes) : scanSpans form (a ++ b) =
    ⟨(scanSpans form ((scanSpans form a).buf ++ b)).buf,
      (scanSpans form a).out ++ (scanSpans form ((scanSpans form a).buf ++ b)).out⟩ := by
  obtain h | ⟨pre, post, rfl, hpost⟩ := last_delimiter_cases a
  · have hnone : scanSpans form a = ⟨[], []⟩ := spanLoop_noise form _ [] h
    rw [scanSpans_noise form h, hnone]
    rfl
  · have hopen : scanSpans form (0x7E :: post) = ⟨0x7E :: post, []⟩ := spanLoop_open form _ [] List.not_mem_nil hpost
    rw [List.append_assoc, List.cons_append, scanSpans_append_cons form pre (post ++ b), scanSpans_append_cons form pre post,
      hopen, List.append_nil, List.cons_append]

/-! ## Frames in one chunk -/

theorem scanSpans_flag : scanSpans form [0x7E] = ⟨[0x7E], []⟩ := rfl

/-- Two delimiters with nothing between them are as one (R274). -/
theorem scanSpans_flag_flag (post : Bytes) : scanSpans form (0x7E :: 0x7E :: post) = scanSpans form (0x7E :: post) :=
  scanSpans_append_cons form [0x7E] post

theorem scanSpans_frame {mid : Bytes} (h : 0x7E ∉ mid) (hne : mid ≠ []) :
    scanSpans form (0x7E :: (mid ++ [0x7E])) = ⟨[0x7E], [itemOf (decodeFrame form (0x7E :: (mid ++ [0x7E])))]⟩ := by
  have hclosed := spanLoop_closed form (0x7E :: (mid ++ [0x7E])).length (post := []) [] List.not_mem_nil h
  rw [if_neg hne] at hclosed
  exact hclosed.trans (spanLoop_open form _ _ List.not_mem_nil List.not_mem_nil)

/-- A frame that decodes has a byte between its delimiters. -/
theorem ne_nil_of_decodeFrame_ok {mid : Bytes} {m : DecodedMessage} (h : decodeFrame form (0x7E :: (mid ++ [0x7E])) = .ok m) :
    mid ≠ [] := by
  rintro rfl
  cases h

/-- A frame with no inner delimiter that decodes to the message beside it. -/
abbrev GoodFrame (f : Bytes × DecodedMessage) : Prop :=
  0x7E ∉ f.1 ∧ decodeFrame form (0x7E :: (f.1 ++ [0x7E])) = .ok f.2

theorem scanSpans_goodFrame {f : Bytes × DecodedMessage} (h : GoodFrame form f) :
    scanSpans form (0x7E :: (f.1 ++ [0x7E])) = ⟨[0x7E], [.ok f.2]⟩ := by
  obtain ⟨hmid, hdec⟩ := h
  rw [scanSpans_frame form hmid (ne_nil_of_decodeFrame_ok form hdec), hdec]
  rfl

/-- A good frame gives its message, and the scan goes on from its closing delimiter. -/
theorem scanSpans_goodFrame_append {f : Bytes × DecodedMessage} (h : GoodFrame form f) {post b : Bytes} {items : List Item}
    (hscan : scanSpans form (0x7E :: post) = ⟨b, items⟩) :
    scanSpans form (0x7E :: (f.1 ++ 0x7E :: post)) = ⟨b, .ok f.2 :: items⟩ := by
  have hsplit := scanSpans_append_cons form (0x7E :: f.1) post
  rw [List.cons_append, List.cons_append, scanSpans_goodFrame form h, hscan] at hsplit
  exact hsplit

/-- Frames that share delimiters: one item each, and one delimiter is left. -/
theorem scanSpans_shared {frames : List (Bytes × DecodedMessage)} (h : ∀ f ∈ frames, GoodFrame form f) :
    scanSpans form (0x7E :: frames.flatMap fun f => f.1 ++ [0x7E]) = ⟨[0x7E], frames.map fun f => .ok f.2⟩ := by
  induction frames with
  | nil => exact scanSpans_flag form
  | cons f frames ih =>
    obtain ⟨hf, hframes⟩ := List.forall_mem_cons.mp h
    rw [List.flatMap_cons, List.append_assoc, List.singleton_append]
    exact scanSpans_goodFrame_append form hf (ih hframes)

/-- Frames with two delimiters each, after a delimiter: the same. -/
theorem scanSpans_backToBack {frames : List (Bytes × DecodedMessage)} (h : ∀ f ∈ frames, GoodFrame form f) :
    scanSpans form (0x7E :: frames.flatMap fun f => 0x7E :: (f.1 ++ [0x7E])) = ⟨[0x7E], frames.map fun f => .ok f.2⟩ := by
  induction frames with
  | nil => exact scanSpans_flag form
  | cons f frames ih =>
    obtain ⟨hf, hframes⟩ := List.forall_mem_cons.mp h
    rw [List.flatMap_cons, List.cons_append, scanSpans_flag_flag, List.append_assoc, List.singleton_append]
    exact scanSpans_goodFrame_append form hf (ih hframes)

/-- With or without a delimiter left over in the buffer, a chunk that begins with one is scanned the same. -/
theorem scanSpans_leftover {buf : Bytes} (h : buf = [] ∨ buf = [0x7E]) (post : Bytes) :
    scanSpans form (buf ++ 0x7E :: post) = scanSpans form (0x7E :: post) := by
  obtain rfl | rfl := h
  · rfl
  · exact scanSpans_flag_flag form post

end Sys2Proof.Machine
end

section
/-!
PROOFS. What FEED answers for good frames (R278 items 3 and 4), and for a stream that comes in chunks (R278 item 2).
-/

namespace Sys2Proof.Machine

open Sys2Proof.Claims

/-! ## Good frames -/

theorem answers_decodeFrame_ok_iff {s : State} {w : Bytes} {m : DecodedMessage} :
    Answers s (.decodeFrame w) 0x00 (.message m) ↔ decodeFrame s.cfg.crcForm w = .ok m :=
  (answers_ok_iff (exec_decodeFrame w s)).trans map_message_eq_ok

/-- One delimiter is within every legal maximum (R9). -/
theorem length_flag_le {c : Config} (h : c.Legal) : ([0x7E] : Bytes).length ≤ c.reasmMaxBytes := by
  rw [List.length_singleton]
  omega

/-- Settles O55: the scan splits at the frame's first delimiter, and from there it finds the frame. -/
theorem frameAfterAnyNoiseIsDecoded : Obligations.FrameAfterAnyNoiseIsDecoded := by
  intro s k noise mid m hlegal hk hmid hans
  have hscan := scanSpans_append_cons s.cfg.crcForm (s.buf k.toNat ++ noise) (mid ++ [0x7E])
  rw [scanSpans_goodFrame _ (f := (mid, m)) ⟨hmid, answers_decodeFrame_ok_iff.mp hans⟩, List.append_assoc] at hscan
  exact ⟨_, exec_feed_of_scan hk hscan (length_flag_le hlegal)⟩

/-- Settles O56: each spacing, after whatever delimiter is left over. -/
theorem manyFramesGiveManyItems : Obligations.ManyFramesGiveManyItems := by
  intro s k frames hlegal hk hbuf hne hframes chunk hchunk
  have hgood : ∀ f ∈ frames, GoodFrame s.cfg.crcForm f := fun f hf =>
    ⟨(hframes f hf).1, answers_decodeFrame_ok_iff.mp (hframes f hf).2⟩
  refine exec_feed_of_scan hk ?_ (length_flag_le hlegal)
  obtain rfl | rfl := hchunk
  · obtain ⟨f, rest, rfl⟩ := List.exists_cons_of_ne_nil hne
    rw [← scanSpans_backToBack _ hgood, List.flatMap_cons, List.cons_append, scanSpans_leftover _ hbuf, scanSpans_flag_flag]
  · rw [scanSpans_leftover _ hbuf, scanSpans_shared _ hgood]

/-! ## A stream in chunks -/

theorem itemsIn_append (l l' : List Response) : itemsIn (l ++ l') = itemsIn l ++ itemsIn l' := List.flatMap_append

theorem itemsIn_items (items : List Item) : itemsIn [okResponse (.items items)] = items := List.append_nil items

theorem run_succ_of_step {s t : State} (h : step s = .next t) (n : Nat) :
    Sys2Proof.core.run (n + 1) s = Sys2Proof.core.run n t := by
  have hcore : Sys2Proof.core.step s = .next t := h
  simp only [Host.Core.run, hcore]

/-- FEED keeps what a scan keeps and answers the items it finds, unless one of its own is BufferOverflow. -/
theorem feedBuffer_eq_scanSpans {cfg : Config} {buf chunk : Bytes}
    (h : .err .bufferOverflow ∉ (feedBuffer cfg buf chunk).out) :
    feedBuffer cfg buf chunk = scanSpans cfg.crcForm (buf ++ chunk) := by
  rw [feedBuffer, checkOverflow] at h ⊢
  split_ifs at h ⊢ with hlen
  · simp at h
  · rfl

/-- What a step on a FEED request leaves, field by field. -/
theorem step_feed {s : State} {k : Byte} {chunk : Bytes} {rest : List HostMove} (hk : k.toNat < s.cfg.reasmInstances)
    (hlen : s.bufs.length = s.cfg.reasmInstances) (hp : s.pending = .request ⟨0x50, k, .bytes chunk⟩ :: rest) :
    ∃ t, step s = .next t ∧ t.cfg = s.cfg ∧ t.pending = rest ∧
      t.bufs = s.bufs.set k.toNat (feedBuffer s.cfg (s.buf k.toNat) chunk).buf ∧
      t.buf k.toNat = (feedBuffer s.cfg (s.buf k.toNat) chunk).buf ∧
      t.responses = s.responses ++ [okResponse (.items (feedBuffer s.cfg (s.buf k.toNat) chunk).out)] := by
  have hstep := (step_move hp).trans ((takeRequest_of_decodeRequest_ok _ (decodeRequest_feed k chunk)).trans
    (exec_feed_inRange chunk hk))
  exact ⟨_, hstep, rfl, rfl, rfl, State.buf_setBuf_self _ _ (hlen ▸ hk), rfl⟩

/-- Writing back what a buffer holds changes nothing. -/
theorem State.bufs_set_buf_self (s : State) (k : Nat) : s.bufs.set k (s.buf k) = s.bufs := by
  rcases Nat.lt_or_ge k s.bufs.length with h | h
  · simp [State.buf, h]
  · exact List.set_eq_of_length_le h

/-- Chunks fed one by one are scanned as one string, if no FEED overflows: by induction on the chunks, each scan going on from
what the one before it kept. -/
theorem run_feeds {k : Byte} {chunks : List Bytes} {s t : State} (hk : k.toNat < s.cfg.reasmInstances)
    (hlen : s.bufs.length = s.cfg.reasmInstances) (hbuf : BufferOk s.cfg.reasmMaxBytes (s.buf k.toNat))
    (hpending : s.pending = feeds k chunks)
    (hrun : Sys2Proof.core.run chunks.length s = .next t) (hover : .err .bufferOverflow ∉ itemsIn t.responses) :
    itemsIn t.responses =
        itemsIn s.responses ++ (scanSpans s.cfg.crcForm (s.buf k.toNat ++ chunks.flatten)).out ∧
      t.bufs = s.bufs.set k.toNat (scanSpans s.cfg.crcForm (s.buf k.toNat ++ chunks.flatten)).buf := by
  induction chunks generalizing s with
  | nil =>
    obtain rfl := Host.Outcome.next.inj hrun
    rw [List.flatten_nil, List.append_nil, scanSpans_bufferOk _ hbuf, s.bufs_set_buf_self, List.append_nil]
    exact ⟨rfl, rfl⟩
  | cons chunk chunks ih =>
    obtain ⟨s₁, hstep, hcfg, hpending₁, hbufs₁, hbuf₁, hresp₁⟩ := step_feed hk hlen hpending
    have hkept : BufferOk s₁.cfg.reasmMaxBytes (s₁.buf k.toNat) := by
      rw [hcfg, hbuf₁]
      exact bufferOk_feedBuffer s.cfg _ chunk
    obtain ⟨hitems, hbufs⟩ := ih (by rwa [hcfg]) (by rw [hbufs₁, List.length_set, hlen, hcfg]) hkept hpending₁
      ((run_succ_of_step hstep chunks.length).symm.trans hrun)
    rw [hresp₁, itemsIn_append, itemsIn_items] at hitems
    have hfeed : feedBuffer s.cfg (s.buf k.toNat) chunk = scanSpans s.cfg.crcForm (s.buf k.toNat ++ chunk) := by
      refine feedBuffer_eq_scanSpans fun hmem => hover ?_
      rw [hitems]
      exact List.mem_append_left _ (List.mem_append_right _ hmem)
    rw [hitems, hbufs, hbufs₁, hbuf₁, hcfg, hfeed, List.flatten_cons, ← List.append_assoc (s.buf k.toNat),
      scanSpans_append _ (s.buf k.toNat ++ chunk)]
    exact ⟨List.append_assoc _ _ _, List.set_set _⟩

/-- Settles O54: both ways of feeding scan the same string. -/
theorem splittingAStreamChangesNoItem : Obligations.SplittingAStreamChangesNoItem := by
  intro s k chunks t u ⟨_, hlen, hbufs⟩ hk hresp hrun hrun' hover hover'
  have hbuf : BufferOk s.cfg.reasmMaxBytes (s.buf k.toNat) := hbufs _ (s.buf_mem (by rwa [hlen]))
  obtain ⟨hitems, hbufs⟩ := run_feeds (s := { s with pending := feeds k chunks }) hk hlen hbuf rfl hrun hover
  obtain ⟨hitems', hbufs'⟩ := run_feeds (s := { s with pending := feeds k [chunks.flatten] }) hk hlen hbuf rfl hrun' hover'
  rw [hitems, hitems', hbufs, hbufs', List.flatten_singleton]
  exact ⟨rfl, rfl⟩

end Sys2Proof.Machine
end

section
/-!
PROOFS. ESCAPE as a whole (R141), and the round trips through ESCAPE and UNESCAPE (R146) and through WRAP and UNWRAP (R147, R148).
-/

namespace Sys2Proof.Machine

open Sys2Proof.Claims

/-! ## ESCAPE -/

/-- ESCAPE, byte by byte. -/
theorem escape_eq_flatMap (data : Bytes) :
    escape data = data.flatMap fun b => if Special b then [0x7D, b ^^^ 0x20] else [b] := by
  induction data with
  | nil => rfl
  | cons b data ih =>
    rw [List.flatMap_cons, ← ih]
    by_cases h : Special b
    · rw [escape_cons_special h, if_pos h]; rfl
    · rw [escape_cons_plain h, if_neg h]; rfl

/-- What is written for a special byte, after 0x7D. -/
theorem xor_of_special {b : Byte} (h : Special b) : b ^^^ 0x20 = 0x5D ∨ b ^^^ 0x20 = 0x5E := by
  obtain rfl | rfl := h <;> decide

theorem flag_not_mem_escape (data : Bytes) : 0x7E ∉ escape data := by
  induction data with
  | nil => exact List.not_mem_nil
  | cons b data ih =>
    by_cases h : Special b
    · rw [escape_cons_special h]
      have hne : (0x7E : Byte) ≠ b ^^^ 0x20 := by obtain e | e := xor_of_special h <;> rw [e] <;> decide
      exact List.not_mem_cons_of_ne_of_not_mem (by decide) (List.not_mem_cons_of_ne_of_not_mem hne ih)
    · rw [escape_cons_plain h]
      exact List.not_mem_cons_of_ne_of_not_mem (fun e => h (.inl e.symm)) ih

theorem escapesPaired_cons {b : Byte} {s : Bytes} (hb : b ≠ 0x7D) (h : EscapesPaired s) : EscapesPaired (b :: s) := by
  rintro (_ | i) hi
  · exact absurd (Option.some.inj hi) hb
  · exact h i hi

theorem escapesPaired_pair {x : Byte} {s : Bytes} (hx : x = 0x5D ∨ x = 0x5E) (h : EscapesPaired s) :
    EscapesPaired (0x7D :: x :: s) := by
  have hxs : EscapesPaired (x :: s) := escapesPaired_cons (by obtain rfl | rfl := hx <;> decide) h
  rintro (_ | i) hi
  · exact hx.imp (congrArg some) (congrArg some)
  · exact hxs i hi

theorem escapesPaired_nil : EscapesPaired [] := fun _ hi => nomatch hi

/-- Stuffed bytes have their escapes paired, whatever paired bytes follow. -/
theorem escapesPaired_escape_append (data : Bytes) {s : Bytes} (h : EscapesPaired s) : EscapesPaired (escape data ++ s) := by
  induction data with
  | nil => exact h
  | cons b data ih =>
    by_cases hb : Special b
    · rw [escape_cons_special hb]
      exact escapesPaired_pair (xor_of_special hb) ih
    · rw [escape_cons_plain hb]
      exact escapesPaired_cons (fun e => hb (.inr e)) ih

/-- One byte more for each special byte (R141). -/
theorem length_escape (data : Bytes) :
    (escape data).length = data.length + data.countP fun b => decide (Special b) := by
  induction data with
  | nil => rfl
  | cons b data ih =>
    by_cases h : Special b
    · simp only [escape_cons_special h, List.length_cons, ih, List.countP_cons, decide_eq_true_eq, if_pos h]
      omega
    · simp only [escape_cons_plain h, List.length_cons, ih, List.countP_cons, decide_eq_true_eq, if_neg h]
      omega

/-- Settles O18, from the four facts about `escape`. -/
theorem escapeStuffsEveryByte : Obligations.EscapeStuffsEveryByte := fun s data =>
  ⟨_, answers_escape s data, escape_eq_flatMap data, flag_not_mem_escape data,
    List.append_nil (escape data) ▸ escapesPaired_escape_append data escapesPaired_nil, length_escape data⟩

/-! ## UNESCAPE of ESCAPE -/

theorem unescape_escape (data : Bytes) : unescape (escape data) = .ok data := by
  induction data with
  | nil => rfl
  | cons b data ih =>
    by_cases h : Special b
    · rw [escape_cons_special h, unescape_pair, ih, BitVec.xor_assoc, BitVec.xor_self, BitVec.xor_zero]
      rfl
    · rw [escape_cons_plain h, unescape_cons (fun e => h (.inr e)), ih]
      rfl

/-- Settles O20, from the round trip of the two functions. -/
theorem unescapeInvertsEscape : Obligations.UnescapeInvertsEscape := fun s x =>
  ⟨_, answers_escape s x, answers_unescape_ok_iff.mpr (unescape_escape x)⟩

/-! ## WRAP -/

/-- WRAP's frame is 0x7E, the stuffed body, 0x7E (R143). -/
theorem wrap_eq_cons (form : CrcForm) (p : Bytes) :
    wrap form p =
      0x7E :: (escape (p ++ [(crc16 form p).extractLsb' 0 8, (crc16 form p).extractLsb' 8 8]) ++ [0x7E]) := wrap_eq form p

/-- The length of a frame (R148). -/
theorem length_delimited_escape (p : Bytes) (lo hi : Byte) :
    (0x7E :: (escape (p ++ [lo, hi]) ++ [0x7E])).length =
      p.length + 4 + (p ++ [lo, hi]).countP fun b => decide (Special b) := by
  rw [List.length_cons, List.length_append, length_escape]
  simp only [List.length_append, List.length_cons, List.length_nil]
  omega

/-- Settles O22: ESCAPE's output is between the delimiters. -/
theorem wrappedFrameHasNoInnerDelimiter : Obligations.WrappedFrameHasNoInnerDelimiter := fun s p =>
  ⟨_, _, answers_crc16 s p, wrap_eq_cons s.cfg.crcForm p ▸ answers_wrap s p, flag_not_mem_escape _,
    escapesPaired_cons (by decide) (escapesPaired_escape_append _ (escapesPaired_cons (by decide) escapesPaired_nil)),
    length_delimited_escape p _ _⟩

/-! ## UNWRAP of a stuffed body -/

theorem two_le_length_escape (p : Bytes) (lo hi : Byte) : 2 ≤ (escape (p ++ [lo, hi])).length := by
  have := length_le_escape (p ++ [lo, hi])
  rw [List.length_append] at this
  exact le_trans (Nat.le_add_left _ _) this

/-- UNWRAP of a stuffed payload and two bytes compares those two bytes with the payload's CRC (R144). -/
theorem unwrap_escape (form : CrcForm) {p : Bytes} (hp : p ≠ []) (lo hi : Byte) :
    unwrap form (0x7E :: (escape (p ++ [lo, hi]) ++ [0x7E])) =
      if crc16 form p = hi ++ lo then .ok p else .error .crcMismatch :=
  unwrap_body form (two_le_length_escape p lo hi) hp (unescape_escape _)

/-- The framing round trip (R148). -/
theorem unwrap_wrap (form : CrcForm) {p : Bytes} (hp : p ≠ []) : unwrap form (wrap form p) = .ok p := by
  rw [wrap_eq_cons, unwrap_escape form hp, if_pos (append_halves16 _).symm]

theorem unwrap_wrap_nil (form : CrcForm) : unwrap form (wrap form []) = .error .emptyPayload := by
  rw [wrap_eq_cons]
  exact unwrap_emptyPayload form (two_le_length_escape [] _ _) (unescape_escape _) (Nat.le_refl 2)

/-- Settles O23: the stuffed body is unescaped to payload and CRC, and the CRC is the payload's own. -/
theorem unwrapInvertsWrap : Obligations.UnwrapInvertsWrap := by
  refine fun s p => ⟨_, answers_wrap s p, fun hp => answers_unwrap_ok_iff.mpr (unwrap_wrap _ hp), ?_⟩
  rintro rfl
  exact answers_unwrap_of_error (unwrap_wrap_nil _)

end Sys2Proof.Machine
end

section
/-!
PROOFS. Payloads through the message codec: the payload rows of the opcode table (R236 to R239), and the lengths of frames (R98).
-/

namespace Sys2Proof.Machine

open Sys2Proof.Claims

/-! ## Payload rows -/

theorem exec_payloadInstr (k : PayloadKind) (p : Bytes) (s : State) :
    exec (payloadInstr k p) s = .next (s.answer ((decodePayloadAs k p).map .message)) := by cases k <;> rfl

theorem exec_payloadInstr_eq_msgDec {k : PayloadKind} {p : Bytes} (hp : p.head? = some (payloadId k)) (s : State) :
    exec (payloadInstr k p) s = exec (.msgDec p) s := by
  rw [exec_payloadInstr, exec_msgDec, msgDec_known hp (payloadKindOf_eq_some_iff.mpr rfl)]

theorem answers_payloadInstr_short {k : PayloadKind} {p : Bytes} (h : p.length < payloadNeed k) (s : State) :
    Answers s (payloadInstr k p) 0x11 .noInfo :=
  answers_of_error (exec_payloadInstr k p s) (map_message_eq_error.mpr (decodePayloadAs_short h))

theorem answers_payloadInstr_long {k : PayloadKind} {p : Bytes} (h : payloadNeed k ≤ p.length) (s : State) :
    Answers s (payloadInstr k p) 0x00 (.message (decodeKind k p)) :=
  (answers_ok_iff (exec_payloadInstr k p s)).mpr (map_message_eq_ok.mpr (decodePayloadAs_long h))

/-- Settles O13, kind by kind. -/
theorem payloadRowsAnswerAsMsgDec : Obligations.PayloadRowsAnswerAsMsgDec := fun s =>
  ⟨fun _ => exec_payloadInstr_eq_msgDec (k := .heartbeat) rfl s,
    fun _ => exec_payloadInstr_eq_msgDec (k := .ownship) rfl s,
    fun _ => exec_payloadInstr_eq_msgDec (k := .traffic) rfl s,
    fun _ => ⟨fun h => answers_payloadInstr_short (k := .heartbeat) h s,
      fun h => ⟨answers_payloadInstr_short (k := .ownship) h s, answers_payloadInstr_short (k := .traffic) h s⟩⟩,
    fun _ => ⟨fun h => ⟨_, answers_payloadInstr_long (k := .heartbeat) h s⟩,
      fun h => ⟨⟨_, answers_payloadInstr_long (k := .ownship) h s⟩, _, answers_payloadInstr_long (k := .traffic) h s⟩⟩⟩

/-! ## Frame lengths -/

/-- A frame has 4 bytes more than its payload, and at most one more for each byte of payload and CRC (R98). -/
theorem length_wrap_bounds (form : CrcForm) (p : Bytes) :
    p.length + 4 ≤ (wrap form p).length ∧ (wrap form p).length ≤ 2 * p.length + 6 := by
  have hcount := List.countP_le_length (p := fun b : Byte => decide (Special b))
    (l := p ++ [(crc16 form p).extractLsb' 0 8, (crc16 form p).extractLsb' 8 8])
  rw [List.length_append] at hcount
  simp only [List.length_cons, List.length_nil] at hcount
  rw [wrap_eq_cons, length_delimited_escape]
  omega

theorem length_bodyEnc (mode : RoundMode) (pos : Position) (vel : Velocity) (nic nacp : UInt4) (emit : Byte)
    (cs : CallsignIn) (emerg : UInt4) : (bodyEnc mode pos vel nic nacp emit cs emerg).length = 23 := by
  simp [bodyEnc, length_encCs]

theorem length_report (mode : RoundMode) (id byte1 : Byte) (a : BitVec 24) (pos : Position) (vel : Velocity)
    (nic nacp : UInt4) (emit : Byte) (cs : CallsignIn) (emerg : UInt4) :
    ([id, byte1] ++ be24 a ++ bodyEnc mode pos vel nic nacp emit cs emerg).length = 28 := by
  simp [length_bodyEnc]

theorem answers_encodeFrame_length {s : State} {m : Message} {p : Bytes} (h : msgEnc s.cfg.roundMode m = .ok p) :
    ∃ w : Bytes, Answers s (.encodeFrame m) 0x00 (.bytes w) ∧ p.length + 4 ≤ w.length ∧ w.length ≤ 2 * p.length + 6 :=
  ⟨_, answers_encodeFrame_of_ok h, length_wrap_bounds _ p⟩

/-- Settles O46: 7 bytes of Heartbeat payload and 28 of a report's, in a frame. -/
theorem framesHaveBoundedLength : Obligations.FramesHaveBoundedLength := by
  refine fun s => ⟨fun h => answers_encodeFrame_length (m := .hb h) rfl, fun o ho => ?_, fun t ht => ?_⟩
  · have hlen := answers_encodeFrame_length (m := .own o) (msgEncOwn_narrow s.cfg.roundMode ho)
    rwa [length_report] at hlen
  · have hlen := answers_encodeFrame_length (m := .traf t) (msgEncTraf_narrow s.cfg.roundMode ht)
    rwa [length_report] at hlen

end Sys2Proof.Machine
end

section
/-!
PROOFS. The field transforms there and back: the bounds of R189, the sentinels of R245, and callsigns (R244).
-/

namespace Sys2Proof.Machine

open Sys2Proof.Claims

/-! ## Latitude and longitude -/

/-- A rounded number times a step is within half a step of the number times that step. -/
theorem within_round_mul {mode : RoundMode} {q : Q} {r : Int} (h : IsRound mode q r) {step : Q} (hstep : 0 ≤ step) :
    Within (step / 2) (r * step) (q * step) := by
  obtain ⟨hlow, hup, -⟩ := h
  constructor <;> nlinarith

theorem clamped_of_mem {a b x : Q} (h : a ≤ x) (h' : x ≤ b) : max a (min x b) = x := by
  rw [min_eq_left h', max_eq_right h]

/-- A code within the signed range decodes to its integer times the step (R176). -/
theorem decLatLon_ofInt {r : Int} (hlow : -(2 ^ 23) ≤ r) (hhigh : r < 2 ^ 23) :
    decLatLon (BitVec.ofInt 24 r) = r * (180 / 2 ^ 23) := by
  rw [decLatLon, BitVec.toInt_ofInt, Int.bmod_eq_of_le (by omega) (by omega)]
  ring

/-- An angle whose rounded code does not overflow comes back within half a step. -/
theorem within_decLatLon_roundQ {mode : RoundMode} {deg : Q} (hlow : -180 ≤ deg) (hhigh : deg < 180 - 90 / 2 ^ 23) :
    Within (90 / 2 ^ 23) (decLatLon (BitVec.ofInt 24 (roundQ mode (deg * 2 ^ 23 / 180)))) deg := by
  have hround := isRound_roundQ mode (deg * 2 ^ 23 / 180)
  have hmin : -(2 ^ 23) ≤ roundQ mode (deg * 2 ^ 23 / 180) := hround.le_round_of_le (by push_cast; linarith)
  have hmax : roundQ mode (deg * 2 ^ 23 / 180) < 2 ^ 23 := by
    obtain ⟨-, hup, -⟩ := hround
    have : (roundQ mode (deg * 2 ^ 23 / 180) : Q) < 2 ^ 23 := by linarith
    exact_mod_cast this
  have hwithin := within_round_mul hround (step := 180 / 2 ^ 23) (by norm_num)
  rw [decLatLon_ofInt hmin hmax]
  convert hwithin using 1 <;> ring

theorem within_decLatLon_encLat {mode : RoundMode} {deg : Q} (hlow : -90 ≤ deg) (hhigh : deg ≤ 90) :
    Within (90 / 2 ^ 23) (decLatLon (encLat mode deg)) deg := by
  rw [encLat_eq, clamped_of_mem hlow hhigh]
  exact within_decLatLon_roundQ (by linarith) (by linarith)

theorem within_decLatLon_encLon {mode : RoundMode} {deg : Q} (hlow : -180 ≤ deg) (hhigh : deg < 180 - 90 / 2 ^ 23) :
    Within (90 / 2 ^ 23) (decLatLon (encLon mode deg)) deg := by
  rw [encLon_eq, clamped_of_mem hlow (by linarith)]
  exact within_decLatLon_roundQ hlow hhigh

/-! ## Altitude -/

theorem encAlt_some_ne_sentinel (mode : RoundMode) (ft : Q) : encAlt mode (some ft) ≠ 0xFFF := by
  intro h
  have hcode := toNat_encAlt_some mode ft
  have hsentinel : (encAlt mode (some ft)).toNat = 0xFFF := congrArg BitVec.toNat h
  omega

/-- In range the clamp moves the rounded integer only from −1 to 0, which is no farther from the number. -/
theorem decAlt_encAlt_within {mode : RoundMode} {ft : Q} (hlow : -1012.5 ≤ ft) (hhigh : ft < 101362.5) :
    ∃ a : Int, decAlt (encAlt mode (some ft)) = some a ∧ Within 12.5 a ft := by
  refine ⟨_, decAlt_of_ne (encAlt_some_ne_sentinel mode ft), ?_⟩
  rw [toNat_encAlt_some]
  obtain ⟨hdown, hup, -⟩ := isRound_roundQ mode ((ft + 1000) / 25)
  generalize roundQ mode ((ft + 1000) / 25) = r at hdown hup
  have hmax : r ≤ 0xFFE := by
    have : (r : Q) < 4095 := by linarith
    exact Int.lt_add_one_iff.mp (by exact_mod_cast this)
  rw [min_eq_left hmax]
  rcases le_total 0 r with hr | hr
  · rw [max_eq_right hr]
    constructor <;> push_cast <;> linarith
  · have : (r : Q) ≤ 0 := by exact_mod_cast hr
    rw [max_eq_left hr]
    constructor <;> push_cast <;> linarith

/-! ## Ground speed -/

theorem encGs_some_ne_sentinel (kt : BitVec 16) : encGs (some kt) ≠ 0xFFF := by
  intro h
  have hcode := toNat_encGs_some kt
  have hsentinel : (encGs (some kt)).toNat = 0xFFF := congrArg BitVec.toNat h
  omega

theorem decGs_encGs_some (kt : BitVec 16) : decGs (encGs (some kt)) = some (encGs (some kt)) :=
  decGs_of_ne (encGs_some_ne_sentinel kt)

theorem toNat_encGs_of_le {kt : BitVec 16} (h : kt.toNat ≤ 4094) : (encGs (some kt)).toNat = kt.toNat := by
  rw [toNat_encGs_some, min_eq_left h]

/-! ## Vertical speed -/

/-- ENC_VS narrows an integer of ±509 at most (R181). -/
theorem encVs_some_eq_ofInt (mode : RoundMode) (v : BitVec 32) : ∃ r : Int,
    encVs mode (some v) = BitVec.ofInt 12 r ∧ -509 ≤ r ∧ r ≤ 509 ∧
      IsRound mode (((max (-32576) (min v.toInt 32576) : Int) : Q) / 64) r := by
  refine ⟨_, encVs_some_eq mode v, ?_⟩
  have hlow : -32576 ≤ max (-32576) (min v.toInt 32576) := by omega
  have hhigh : max (-32576) (min v.toInt 32576) ≤ 32576 := by omega
  generalize max (-32576) (min v.toInt 32576) = x at hlow hhigh ⊢
  have hlowQ : (-32576 : Q) ≤ x := by exact_mod_cast hlow
  have hhighQ : (x : Q) ≤ 32576 := by exact_mod_cast hhigh
  obtain ⟨hmin, hmax⟩ := roundQ_bounds mode (q := (x : Q) / 64) (n := 509) (by push_cast; linarith) (by push_cast; linarith)
  exact ⟨hmin, hmax, isRound_roundQ _ _⟩

theorem toInt_ofInt12 {r : Int} (hlow : -509 ≤ r) (hhigh : r ≤ 509) : (BitVec.ofInt 12 r).toInt = r := by
  rw [BitVec.toInt_ofInt, Int.bmod_eq_of_le (by omega) (by omega)]

theorem encVs_some_ne_sentinel (mode : RoundMode) (v : BitVec 32) : encVs mode (some v) ≠ 0x800 := by
  obtain ⟨r, hr, hlow, hhigh, -⟩ := encVs_some_eq_ofInt mode v
  rw [hr]
  intro h
  have hsentinel : (BitVec.ofInt 12 r).toInt = -2048 := congrArg BitVec.toInt h
  rw [toInt_ofInt12 hlow hhigh] at hsentinel
  omega

theorem decVs_encVs_within {mode : RoundMode} {v : BitVec 32} (hlow : -32576 ≤ v.toInt) (hhigh : v.toInt ≤ 32576) :
    ∃ a : Int, decVs (encVs mode (some v)) = some a ∧ Within 32 a v.toInt := by
  obtain ⟨r, hr, hmin, hmax, hround⟩ := encVs_some_eq_ofInt mode v
  refine ⟨r * 64, ?_, ?_⟩
  · rw [decVs, if_neg (encVs_some_ne_sentinel mode v), hr, toInt_ofInt12 hmin hmax]
  · obtain ⟨hdown, hup, -⟩ := hround
    rw [min_eq_left hhigh, max_eq_right hlow] at hdown hup
    constructor <;> push_cast <;> linarith

/-- A whole number is its own ROUND. -/
theorem isRound_self (mode : RoundMode) (n : Int) : IsRound mode n n :=
  isRound_of_lt_half (by norm_num) (by norm_num)

/-- A speed that saturates at 64 times `n` has the code of `n`. -/
theorem encVs_of_saturated {v : BitVec 32} {n : Int} (mode : RoundMode)
    (h : max (-32576) (min v.toInt 32576) = n * 64) : encVs mode (some v) = BitVec.ofInt 12 n := by
  have hq : ((n * 64 : Int) : Q) / 64 = n := by push_cast; ring
  rw [encVs_some_eq, h, hq, (isRound_roundQ mode n).unique (isRound_self mode n)]

/-! ## Track -/

/-- Reduction modulo 256 is whole turns (R183, R184). -/
theorem decTrk_encTrk_within (mode : RoundMode) (deg : Q) :
    ∃ n : Int, Within 0.703125 (decTrk (encTrk mode deg)) (deg + 360 * n) := by
  obtain ⟨hdown, hup, -⟩ := isRound_roundQ mode (deg * 256 / 360)
  have hnat := toNat_ofInt_eq_emod 8 (roundQ mode (deg * 256 / 360))
  rw [← encTrk] at hnat
  generalize roundQ mode (deg * 256 / 360) = r at hdown hup hnat
  have hr : ((encTrk mode deg).toNat : Q) = r - 256 * (r / 256 : Int) := by
    have : ((encTrk mode deg).toNat : Int) = r - 256 * (r / 256) := by omega
    exact_mod_cast this
  refine ⟨-(r / 256), ?_⟩
  rw [decTrk, hr]
  constructor <;> push_cast <;> linarith

/-! ## Callsign -/

theorem callChar_zeroExtend (c : UInt7) : callChar (c.zeroExtend 8) = .ascii c := by
  have hlt : (c.zeroExtend 8).toNat ≤ 0x7F := by
    have := c.isLt
    rw [BitVec.zeroExtend, BitVec.toNat_setWidth]
    omega
  rw [callChar_eq, if_pos hlt]
  simp

/-- A callsign that fits is its characters and spaces (R185). -/
theorem encCs_of_length_le {cs : CallsignIn} (h : cs.length ≤ 8) :
    encCs cs = (cs.map fun c => c.zeroExtend 8) ++ List.replicate (8 - cs.length) 0x20 := by
  simp [encCs, List.take_of_length_le h]

theorem stripTrailing_append_spaces (t : CallsignOut) (n : Nat) :
    stripTrailing (t ++ List.replicate n (.ascii 0x20)) = stripTrailing t := by
  induction n with
  | zero => simp
  | succ n ih =>
    rw [List.replicate_succ', ← List.append_assoc, stripTrailing, List.rdropWhile_concat_pos _ _ _ (by simp)]
    exact ih

theorem stripTrailing_of_getLast? {t : CallsignOut} (h : t.getLast? ≠ some (.ascii 0x20)) : stripTrailing t = t := by
  rw [stripTrailing, List.rdropWhile_eq_self_iff]
  intro hne hlast
  exact h (List.getLast?_eq_some_getLast hne ▸ congrArg some (beq_iff_eq.mp hlast))

theorem decCs_encCs {cs : CallsignIn} (hlen : cs.length ≤ 8) (hlast : cs.getLast? ≠ some 0x20) :
    decCs (encCs cs) = cs.map .ascii := by
  have hmap : (encCs cs).map callChar = cs.map .ascii ++ List.replicate (8 - cs.length) (.ascii 0x20) := by
    have hspace : callChar 0x20 = .ascii 0x20 := rfl
    simp only [encCs_of_length_le hlen, List.map_append, List.map_map, Function.comp_def, callChar_zeroExtend,
      List.map_replicate, hspace]
  rw [decCs, hmap, stripTrailing_append_spaces]
  refine stripTrailing_of_getLast? fun h => hlast ?_
  rw [List.getLast?_map, Option.map_eq_some_iff] at h
  obtain ⟨c, hc, heq⟩ := h
  rw [hc, CallChar.ascii.inj heq]

/-- Settles O36: the padding is all that DEC_CS strips. -/
theorem callsignSurvivesTheRoundTrip : Obligations.CallsignSurvivesTheRoundTrip := fun s cs hlen hlast =>
  ⟨⟨(encCs cs).toArray, length_encCs cs⟩, answers_encCs s cs, decCs_encCs hlen hlast ▸ answers_decCs s _⟩

/-! ## The statements -/

theorem answers_encAlt_iff {s : State} {ft : Option Q} {code : UInt12} :
    Answers s (.encAlt ft) 0x00 (.u12 code) ↔ encAlt s.cfg.roundMode ft = code :=
  (answers_iff (resp := okResponse (.u12 (encAlt s.cfg.roundMode ft))) rfl).trans (by simp [okResponse])

theorem answers_encGs_iff {s : State} {kt : Option (BitVec 16)} {code : UInt12} :
    Answers s (.encGs kt) 0x00 (.u12 code) ↔ encGs kt = code :=
  (answers_iff (resp := okResponse (.u12 (encGs kt))) rfl).trans (by simp [okResponse])

theorem answers_encVs_iff {s : State} {fpm : Option (BitVec 32)} {code : UInt12} :
    Answers s (.encVs fpm) 0x00 (.u12 code) ↔ encVs s.cfg.roundMode fpm = code :=
  (answers_iff (resp := okResponse (.u12 (encVs s.cfg.roundMode fpm))) rfl).trans (by simp [okResponse])

/-- Settles O39: the codes of numbers are not the sentinels, and a saturated speed is ±509 units. -/
theorem sentinelsMeanNoDataAndNothingElse : Obligations.SentinelsMeanNoDataAndNothingElse := by
  refine fun s => ⟨⟨answers_encAlt s none, answers_decAlt s _, fun ft h => ?_⟩,
    ⟨answers_encGs s none, answers_decGs s _, fun kt h => ?_⟩,
    ⟨answers_encVs s none, answers_decVs s _, fun v h => ?_⟩, fun v h => ?_, fun v h => ?_,
    answers_decVs s _, answers_decVs s _⟩
  · exact encAlt_some_ne_sentinel _ ft (answers_encAlt_iff.mp h)
  · exact encGs_some_ne_sentinel kt (answers_encGs_iff.mp h)
  · exact encVs_some_ne_sentinel _ v (answers_encVs_iff.mp h)
  · exact answers_encVs_iff.mpr (encVs_of_saturated (n := 509) _ (by omega))
  · exact answers_encVs_iff.mpr (encVs_of_saturated (n := -509) _ (by omega))

/-- Settles O40, field by field. -/
theorem fieldRoundTripsStayWithinHalfAStep : Obligations.FieldRoundTripsStayWithinHalfAStep := by
  refine fun s => ⟨fun deg hlow hhigh => ?_, fun deg hlow hhigh => ?_, fun ft hlow hhigh => ?_, fun kt hkt => ?_,
    fun v hlow hhigh => ?_, fun deg => ?_⟩
  · exact ⟨_, _, answers_encLat s deg, answers_decLatLon s _, within_decLatLon_encLat hlow hhigh⟩
  · exact ⟨_, _, answers_encLon s deg, answers_decLatLon s _, within_decLatLon_encLon hlow hhigh⟩
  · obtain ⟨a, ha, hwithin⟩ := decAlt_encAlt_within (mode := s.cfg.roundMode) hlow hhigh
    exact ⟨_, a, answers_encAlt s _, ha ▸ answers_decAlt s _, hwithin⟩
  · exact ⟨_, answers_encGs s _, decGs_encGs_some kt ▸ answers_decGs s _, toNat_encGs_of_le hkt⟩
  · obtain ⟨a, ha, hwithin⟩ := decVs_encVs_within (mode := s.cfg.roundMode) hlow hhigh
    exact ⟨_, a, answers_encVs s _, ha ▸ answers_decVs s _, hwithin⟩
  · obtain ⟨n, hn⟩ := decTrk_encTrk_within s.cfg.roundMode deg
    exact ⟨_, _, n, answers_encTrk s deg, answers_decTrk s _, hn⟩

end Sys2Proof.Machine
end

section
/-!
PROOFS. Whole messages there and back (R244): each kind's payload is read as it was written, up to quantization.
-/

namespace Sys2Proof.Machine

open Sys2Proof.Claims

/-! ## Frames -/

/-- What WRAP wraps, DECODE_FRAME hands to MSG_DEC. -/
theorem decodeFrame_wrap (form : CrcForm) {p : Bytes} (hp : p ≠ []) : decodeFrame form (wrap form p) = msgDec p := by
  rw [decodeFrame, unwrap_wrap form hp]

/-- A payload of a kind goes through the wire to that kind's decoder. -/
theorem answers_frame_roundTrip {s : State} {m : Message} {p : Bytes} {k : PayloadKind}
    (henc : msgEnc s.cfg.roundMode m = .ok p) (hp : p.head? = some (payloadId k)) (hlen : payloadNeed k ≤ p.length) :
    ∃ w : Bytes, Answers s (.encodeFrame m) 0x00 (.bytes w) ∧ Answers s (.decodeFrame w) 0x00 (.message (decodeKind k p)) := by
  have hne : p ≠ [] := by
    rintro rfl
    cases hp
  refine ⟨_, answers_encodeFrame_of_ok henc, answers_decodeFrame_ok_iff.mpr ?_⟩
  rw [decodeFrame_wrap _ hne, msgDec_known hp (payloadKindOf_eq_some_iff.mpr rfl), decodePayloadAs_long hlen]

/-! ## Heartbeat -/

/-- A byte with bit 7 clear is its low 7 bits. -/
theorem append_low7 {b : Byte} (h : b.getLsbD 7 = false) : 0#1 ++ b.extractLsb' 0 7 = b := by
  have hmsb : b.msb = false := h
  have hlt := BitVec.msb_eq_false_iff_two_mul_lt.mp hmsb
  apply BitVec.eq_of_toNat_eq
  rw [toNat_append_eq_mul_add, BitVec.extractLsb'_toNat, Nat.shiftRight_zero, BitVec.toNat_ofNat]
  omega

/-- Bit 16, bits 15:8 and bits 7:0 of a timestamp make it again (R93). -/
theorem append_parts17 (t : UInt17) :
    t.extractLsb' 16 1 ++ ((t.extractLsb' 0 16).extractLsb' 8 8 ++ (t.extractLsb' 0 16).extractLsb' 0 8) = t := by
  rw [append_halves16]
  apply BitVec.eq_of_toNat_eq
  rw [toNat_append_eq_mul_add, BitVec.extractLsb'_toNat, BitVec.extractLsb'_toNat, Nat.shiftRight_zero,
    Nat.shiftRight_eq_div_pow]
  have := t.isLt
  omega

/-- DEC_HB of MSG_ENC_HB's payload: the fields as they were, the timestamp as it was clamped. -/
theorem decHb_msgEncHb {m : Heartbeat} (h : m.status2.getLsbD 7 = false) :
    decHb (msgEncHb m) = .hb ⟨m.status1, m.status2, heartbeatTimestamp m.timestampSeconds, m.messageCount⟩ := by
  have hread : decHb (msgEncHb m) = .hb ⟨m.status1,
      0#1 ++ ((heartbeatTimestamp m.timestampSeconds).extractLsb' 16 1 ++ m.status2.extractLsb' 0 7).extractLsb' 0 7,
      ((heartbeatTimestamp m.timestampSeconds).extractLsb' 16 1 ++ m.status2.extractLsb' 0 7).extractLsb' 7 1 ++
        (((heartbeatTimestamp m.timestampSeconds).extractLsb' 0 16).extractLsb' 8 8 ++
          ((heartbeatTimestamp m.timestampSeconds).extractLsb' 0 16).extractLsb' 0 8),
      m.messageCount.extractLsb' 8 8 ++ m.messageCount.extractLsb' 0 8⟩ := rfl
  rw [hread, BitVec.extractLsb'_append_eq_right, BitVec.extractLsb'_append_eq_left, append_low7 h, append_parts17,
    append_halves16]

/-! ## Reports -/

/-- BODY_DEC of what BODY_ENC wrote, each code decoded by its own transform (R231, R232). -/
theorem bodyDec_report (mode : RoundMode) (id byte1 : Byte) (a : BitVec 24) (pos : Position) (vel : Velocity)
    (nic nacp : UInt4) (emit : Byte) (cs : CallsignIn) (emerg : UInt4) :
    bodyDec ([id, byte1] ++ be24 a ++ bodyEnc mode pos vel nic nacp emit cs emerg) =
      { position := ⟨decLatLon (encLat mode pos.latitudeDeg), decLatLon (encLon mode pos.longitudeDeg),
          decAlt (encAlt mode pos.altitudeFt), pos.miscIndicators⟩
        velocity := ⟨decGs (encGs vel.groundSpeedKt), decVs (encVs mode vel.verticalSpeedFpm),
          decTrk (encTrk mode vel.trackDeg)⟩
        navIntegrity := nic
        navAccuracy := nacp
        emitterCategory := emit
        callsign := decCs (encCs cs)
        emergencyCode := emerg } := by
  set p : Bytes := [id, byte1] ++ be24 a ++ bodyEnc mode pos vel nic nacp emit cs emerg
  have hlat : rdBe24 p 5 = encLat mode pos.latitudeDeg := append_thirds24 _
  have hlon : rdBe24 p 8 = encLon mode pos.longitudeDeg := append_thirds24 _
  have halt : rdBe16 p 11 = encAlt mode pos.altitudeFt ++ pos.miscIndicators := append_halves16 _
  have hnav : byteAt p 13 = packNib nic nacp := rfl
  have hspeeds : rdBe24 p 14 = encGs vel.groundSpeedKt ++ encVs mode vel.verticalSpeedFpm := append_thirds24 _
  have htrk : byteAt p 17 = encTrk mode vel.trackDeg := rfl
  have hemit : byteAt p 18 = emit := rfl
  have hcs : slice p 19 27 = encCs cs :=
    (List.take_left' (length_encCs cs) : (encCs cs ++ [packNib emerg 0]).take 8 = encCs cs)
  have hlast : byteAt p 27 = packNib emerg 0 :=
    (by simp [length_encCs] : (encCs cs ++ [packNib emerg 0]).getD 8 0 = packNib emerg 0)
  simp only [bodyDec, hlat, hlon, halt, hnav, hspeeds, htrk, hemit, hcs, hlast, unpackNib, packNib,
    BitVec.extractLsb'_append_eq_left, BitVec.extractLsb'_append_eq_right]

/-- The three bytes after the first two are the address (R92). -/
theorem rdBe24_report (id byte1 : Byte) (a : BitVec 24) (body : Bytes) : rdBe24 ([id, byte1] ++ be24 a ++ body) 2 = a :=
  append_thirds24 a

theorem toNat_setWidth24 {a : BitVec 32} (h : a.toNat ≤ 0xFFFFFF) : (a.setWidth 24).toNat = a.toNat := by
  rw [BitVec.toNat_setWidth, Nat.mod_eq_of_lt (by omega)]

/-- An altitude is within 12.5 ft, and absent when it was absent. -/
theorem optWithin_altitude {mode : RoundMode} {alt : Option Q} (h : ∀ ft, alt = some ft → -1012.5 ≤ ft ∧ ft < 101362.5) :
    OptWithin 12.5 ((decAlt (encAlt mode alt)).map fun a => (a : Q)) alt := by
  cases alt with
  | none => trivial
  | some ft =>
    obtain ⟨hlow, hhigh⟩ := h ft rfl
    obtain ⟨a, ha, hwithin⟩ := decAlt_encAlt_within (mode := mode) hlow hhigh
    rw [ha]
    exact hwithin

/-- A ground speed comes back exactly, and absent when it was absent. -/
theorem groundSpeed_roundTrip {gs : Option (BitVec 16)} (h : ∀ kt, gs = some kt → kt.toNat ≤ 4094) :
    ((decGs (encGs gs)).map fun k => k.toNat) = gs.map fun k => k.toNat := by
  cases gs with
  | none => rfl
  | some kt => rw [decGs_encGs_some, Option.map_some, Option.map_some, toNat_encGs_of_le (h kt rfl)]

/-- A vertical speed is within 32 fpm, and absent when it was absent. -/
theorem optWithin_verticalSpeed {mode : RoundMode} {vs : Option (BitVec 32)}
    (h : ∀ v, vs = some v → -32576 ≤ v.toInt ∧ v.toInt ≤ 32576) :
    OptWithin 32 ((decVs (encVs mode vs)).map fun x => (x : Q)) (vs.map fun x => (x.toInt : Q)) := by
  cases vs with
  | none => trivial
  | some v =>
    obtain ⟨hlow, hhigh⟩ := h v rfl
    obtain ⟨a, ha, hwithin⟩ := decVs_encVs_within (mode := mode) hlow hhigh
    rw [ha]
    exact hwithin

/-- The fields a report in range shares with the other kind come back: the address and callsign exactly, position and velocity
within R189's bounds. -/
theorem report_fields_agree (mode : RoundMode) {a : BitVec 32} {pos : Position} {vel : Velocity} {cs : CallsignIn}
    (h : reportInRange a pos vel cs) :
    (a.setWidth 24).toNat = a.toNat ∧
    positionAgrees pos ⟨decLatLon (encLat mode pos.latitudeDeg), decLatLon (encLon mode pos.longitudeDeg),
      decAlt (encAlt mode pos.altitudeFt), pos.miscIndicators⟩ ∧
    velocityAgrees vel ⟨decGs (encGs vel.groundSpeedKt), decVs (encVs mode vel.verticalSpeedFpm),
      decTrk (encTrk mode vel.trackDeg)⟩ ∧
    decCs (encCs cs) = cs.map .ascii := by
  obtain ⟨haddr, ⟨hlatLow, hlatHigh⟩, ⟨hlonLow, hlonHigh⟩, halt, hgs, hvs, hlen, hlast⟩ := h
  exact ⟨toNat_setWidth24 haddr,
    ⟨within_decLatLon_encLat hlatLow hlatHigh, within_decLatLon_encLon hlonLow hlonHigh, optWithin_altitude halt, rfl⟩,
    ⟨groundSpeed_roundTrip hgs, optWithin_verticalSpeed hvs, decTrk_encTrk_within mode _⟩, decCs_encCs hlen hlast⟩

/-- Byte 1 of a Traffic Report gives back the alert (R95). -/
theorem trafficStatus_alert :
    ∀ (alert : Bool) (addressType : UInt3), (trafficStatus alert addressType).getLsbD 4 = alert := by decide

theorem trafficStatus_addressType (alert : Bool) (addressType : UInt3) :
    (trafficStatus alert addressType).extractLsb' 0 3 = addressType :=
  BitVec.extractLsb'_append_eq_right

/-- Settles O49, kind by kind: the frame carries the kind's payload, and its decoder reads the fields back. -/
theorem inRangeMessageSurvivesTheWire : Obligations.InRangeMessageSurvivesTheWire := by
  intro s m hm
  cases m with
  | hb h =>
    obtain ⟨hstatus, hts⟩ := hm
    obtain ⟨w, hw, hd⟩ := answers_frame_roundTrip (s := s) (m := .hb h) (k := .heartbeat) rfl rfl (Nat.le_refl 7)
    rw [decodeKind, decHb_msgEncHb hstatus] at hd
    exact ⟨w, _, hw, hd, rfl, rfl, (toNat_heartbeatTimestamp _).trans (min_eq_left hts), rfl⟩
  | own o =>
    obtain ⟨haddr, hpos, hvel, hcs⟩ := report_fields_agree s.cfg.roundMode hm
    obtain ⟨w, hw, hd⟩ := answers_frame_roundTrip (m := .own o) (k := .ownship)
      (msgEncOwn_narrow s.cfg.roundMode hm.1) rfl (length_report ..).ge
    rw [decodeKind, decOwn, bodyDec_report, rdBe24_report] at hd
    exact ⟨w, _, hw, hd, haddr, hpos, hvel, rfl, rfl, rfl, hcs, rfl⟩
  | traf t =>
    obtain ⟨haddr, hpos, hvel, hcs⟩ := report_fields_agree s.cfg.roundMode hm
    obtain ⟨w, hw, hd⟩ := answers_frame_roundTrip (m := .traf t) (k := .traffic)
      (msgEncTraf_narrow s.cfg.roundMode hm.1) rfl (length_report ..).ge
    rw [decodeKind, decTraf, bodyDec_report, rdBe24_report] at hd
    exact ⟨w, _, hw, hd, trafficStatus_alert _ _, trafficStatus_addressType _ _, haddr, hpos, hvel, rfl, rfl, rfl, hcs, rfl⟩

end Sys2Proof.Machine
end

section
/-!
PROOFS. The CRC table against its generation rule (R120), and words and messages as polynomials over GF(2) (R123).
-/

namespace Sys2Proof.Machine

open Sys2Proof.Claims Polynomial

/-! ## The table -/

theorem length_crcTable : crcTable.length = 256 := by decide +kernel

/-- The printed table, entry by entry, against the generation rule. -/
theorem crcEntry_eq_crcGenEntry : ∀ i : Byte, crcEntry i = crcGenEntry i := by decide +kernel

/-- The generation rule asks for bit 15, the top bit. -/
theorem crcGenStep_eq : crcGenStep = fun c => if c.getLsbD 15 then (c <<< 1) ^^^ 0x1021 else c <<< 1 := rfl

/-- Settles O14. -/
theorem crcTableIsTheGeneratedTable : Obligations.CrcTableIsTheGeneratedTable := by
  refine ⟨length_crcTable, fun i => ?_⟩
  rw [crcEntry_eq_crcGenEntry, crcGenEntry, crcGenStep_eq]

/-! ## Words as polynomials -/

/-- Bit i is the coefficient of x^i. -/
theorem coeff_wordPoly {n : Nat} (v : BitVec n) (i : Nat) : (wordPoly v).coeff i = if v.getLsbD i then 1 else 0 := by
  have hterm : ∀ j, (if v.getLsbD j then (X ^ j : (ZMod 2)[X]) else 0).coeff i =
      if i = j then (if v.getLsbD i then 1 else 0) else 0 := by
    intro j
    by_cases hv : v.getLsbD j <;> by_cases hij : i = j <;> simp_all [coeff_X_pow]
  simp only [wordPoly, finsetSum_coeff, hterm, Finset.sum_ite_eq, Finset.mem_range]
  by_cases hi : i < n
  · rw [if_pos hi]
  · rw [if_neg hi, BitVec.getLsbD_of_ge v i (Nat.not_lt.mp hi)]
    rfl

theorem wordPoly_xor {n : Nat} (v w : BitVec n) : wordPoly (v ^^^ w) = wordPoly v + wordPoly w := by
  ext i
  rw [coeff_add, coeff_wordPoly, coeff_wordPoly, coeff_wordPoly, BitVec.getLsbD_xor]
  cases v.getLsbD i <;> cases w.getLsbD i <;> decide

/-- Widening a word leaves its polynomial as it is. -/
theorem wordPoly_setWidth {m n : Nat} (h : m ≤ n) (v : BitVec m) : wordPoly (v.setWidth n) = wordPoly v := by
  ext i
  rw [coeff_wordPoly, coeff_wordPoly, BitVec.getLsbD_setWidth]
  by_cases hi : i < n
  · simp [hi]
  · simp [hi, BitVec.getLsbD_of_ge v i (by omega)]

/-- Multiplying by x^k shifts left by k; the bits that leave the word are the coefficients from x^n up. -/
theorem wordPoly_mul_X_pow {n k : Nat} (h : k ≤ n) (v : BitVec n) :
    wordPoly v * X ^ k = wordPoly (v <<< k) + wordPoly (v.extractLsb' (n - k) k) * X ^ n := by
  ext i
  simp only [coeff_add, coeff_mul_X_pow', coeff_wordPoly, BitVec.getLsbD_shiftLeft, BitVec.getLsbD_extractLsb']
  by_cases hn : n ≤ i
  · have hlt : (i - n < k) = (i - k < n) := by apply propext; omega
    have hidx : n - k + (i - n) = i - k := by omega
    rw [if_pos (by omega), if_pos hn, hidx]
    by_cases hk : i - k < n
    · simp [hlt, hk, Nat.not_lt.mpr hn]
    · simp [hlt, hk, BitVec.getLsbD_of_ge v (i - k) (by omega)]
  · by_cases hk : k ≤ i
    · simp [hn, hk, Nat.not_le.mp hn]
    · simp [hn, hk, Nat.not_le.mp hk]

theorem degree_wordPoly_lt {n : Nat} (v : BitVec n) : (wordPoly v).degree < n := by
  rw [degree_lt_iff_coeff_zero]
  intro i hi
  rw [coeff_wordPoly, BitVec.getLsbD_of_ge v i hi]
  rfl

theorem wordPoly_injective {n : Nat} {v w : BitVec n} (h : wordPoly v = wordPoly w) : v = w := by
  apply BitVec.eq_of_getLsbD_eq
  intro i _
  have hi := congrArg (coeff · i) h
  simp only [coeff_wordPoly] at hi
  cases hv : v.getLsbD i <;> cases hw : w.getLsbD i <;> simp_all

theorem messagePoly_concat (d : Bytes) (b : Byte) : messagePoly (d ++ [b]) = messagePoly d * X ^ 8 + wordPoly b := by
  rw [messagePoly, List.foldl_append]
  rfl

end Sys2Proof.Machine
end

section
/-!
PROOFS. Words modulo the generator polynomial G(x) (R123).
-/

namespace Sys2Proof.Machine

open Sys2Proof.Claims Polynomial

theorem wordPoly_0x1021 : wordPoly (0x1021 : BitVec 16) = X ^ 12 + X ^ 5 + 1 := by
  simp [wordPoly, Finset.sum_range_succ, add_comm, add_assoc]

theorem degree_tail_lt : (X ^ 12 + X ^ 5 + 1 : (ZMod 2)[X]).degree < (16 : Nat) :=
  wordPoly_0x1021 ▸ degree_wordPoly_lt (0x1021 : BitVec 16)

theorem generatorPoly_eq : generatorPoly = X ^ 16 + (X ^ 12 + X ^ 5 + 1) := by
  rw [generatorPoly]
  ring

theorem monic_generatorPoly : generatorPoly.Monic := generatorPoly_eq ▸ monic_X_pow_add degree_tail_lt

theorem degree_generatorPoly : generatorPoly.degree = (16 : Nat) := by
  rw [generatorPoly_eq, degree_add_eq_left_of_degree_lt, degree_X_pow]
  rw [degree_X_pow]
  exact degree_tail_lt

/-- A word's residue class modulo G(x). -/
noncomputable def residue {n : Nat} (v : BitVec n) : AdjoinRoot generatorPoly := AdjoinRoot.mk generatorPoly (wordPoly v)

/-- The residue class of x. -/
noncomputable def xClass : AdjoinRoot generatorPoly := AdjoinRoot.mk generatorPoly X

theorem residue_xor {n : Nat} (v w : BitVec n) : residue (v ^^^ w) = residue v + residue w := by
  rw [residue, wordPoly_xor, map_add]
  rfl

theorem residue_setWidth {m n : Nat} (h : m ≤ n) (v : BitVec m) : residue (v.setWidth n) = residue v := by
  rw [residue, wordPoly_setWidth h, residue]

theorem residue_mul_xClass_pow {n k : Nat} (h : k ≤ n) (v : BitVec n) :
    residue v * xClass ^ k = residue (v <<< k) + residue (v.extractLsb' (n - k) k) * xClass ^ n := by
  simpa only [residue, xClass, map_mul, map_add, map_pow] using
    congrArg (AdjoinRoot.mk generatorPoly) (wordPoly_mul_X_pow h v)

/-- x^16 is what 0x1021 stands for, for their sum is G(x). -/
theorem xClass_pow_16 : xClass ^ 16 = residue (0x1021 : BitVec 16) := by
  rw [xClass, residue, ← map_pow, AdjoinRoot.mk_eq_mk, wordPoly_0x1021, CharTwo.sub_eq_add, ← generatorPoly_eq]

/-- G(x) has the constant term 1, so x divides 1. -/
theorem isUnit_xClass : IsUnit xClass := by
  refine IsUnit.of_mul_eq_one (AdjoinRoot.mk generatorPoly (X ^ 15 + X ^ 11 + X ^ 4)) ?_
  rw [xClass, ← map_mul, ← map_one (AdjoinRoot.mk generatorPoly), AdjoinRoot.mk_eq_mk, CharTwo.sub_eq_add, generatorPoly]
  exact dvd_of_eq (by ring)

/-- Words of at most 16 bits are their own remainders, so different ones are not congruent. -/
theorem residue_injective {n : Nat} (hn : n ≤ 16) {v w : BitVec n} (h : residue v = residue w) : v = w := by
  have hdvd : generatorPoly ∣ wordPoly v - wordPoly w := AdjoinRoot.mk_eq_mk.mp h
  have hdeg : (wordPoly v - wordPoly w).degree < generatorPoly.degree := by
    rw [degree_generatorPoly]
    exact ((degree_sub_le _ _).trans_lt (max_lt (degree_wordPoly_lt v) (degree_wordPoly_lt w))).trans_le (by exact_mod_cast hn)
  exact wordPoly_injective (sub_eq_zero.mp (eq_zero_of_dvd_of_degree_lt hdvd hdeg))

end Sys2Proof.Machine
end

section
/-!
PROOFS. CRC16 modulo G(x) (R120 to R123): the table, the update equation of either form, the remainder, and the flip of one bit.
-/

namespace Sys2Proof.Machine

open Sys2Proof.Claims Polynomial

theorem residue_zero {n : Nat} : residue (0 : BitVec n) = 0 := by simp [residue, wordPoly]

theorem residue_ofBool (b : Bool) : residue (BitVec.ofBool b) = if b then 1 else 0 := by
  cases b <;> simp [residue, wordPoly]

theorem extractLsb'_top (c : BitVec 16) : c.extractLsb' (16 - 1) 1 = BitVec.ofBool c.msb := by
  ext i hi
  obtain rfl : i = 0 := by omega
  simp [BitVec.msb_eq_getLsbD_last]

theorem extractLsb'_high_zeroExtend (i : Byte) : (i.zeroExtend 16).extractLsb' (16 - 8) 8 = 0 := by
  ext j hj
  simp

/-! ## The table and the update -/

/-- One pass of the generation rule multiplies by x: the bit that is shifted out comes back as 0x1021. -/
theorem residue_crcGenStep (c : BitVec 16) : residue (crcGenStep c) = residue c * xClass := by
  have hmul := residue_mul_xClass_pow (k := 1) (by decide) c
  rw [pow_one, extractLsb'_top, residue_ofBool, xClass_pow_16] at hmul
  rw [hmul, crcGenStep]
  split_ifs
  · rw [residue_xor, one_mul]
  · rw [zero_mul, add_zero]

theorem residue_iterate_crcGenStep (n : Nat) (c : BitVec 16) :
    residue (crcGenStep^[n] c) = residue c * xClass ^ n := by
  induction n generalizing c with
  | zero => simp
  | succ n ih => rw [Function.iterate_succ_apply, ih, residue_crcGenStep, pow_succ', mul_assoc]

/-- A table entry is its index times x^16. -/
theorem residue_crcEntry (i : Byte) : residue (crcEntry i) = residue i * xClass ^ 16 := by
  have hshift := residue_mul_xClass_pow (k := 8) (by decide) (i.zeroExtend 16)
  rw [extractLsb'_high_zeroExtend, residue_zero, zero_mul, add_zero, BitVec.zeroExtend, residue_setWidth (by decide)] at hshift
  rw [crcEntry_eq_crcGenEntry, crcGenEntry, residue_iterate_crcGenStep, BitVec.zeroExtend, ← hshift, mul_assoc, ← pow_add]

/-- The power of x by which a byte is multiplied when it is taken in. -/
def byteShift (form : CrcForm) : Nat :=
  match form with
  | .icd => 0
  | .xmodem => 16

/-- The update equation of either form: the CRC moves up by 8 places, and the byte is added (R122). -/
theorem residue_crcStep (form : CrcForm) (c : BitVec 16) (b : Byte) :
    residue (crcStep form c b) = residue c * xClass ^ 8 + residue b * xClass ^ byteShift form := by
  rw [residue_mul_xClass_pow (k := 8) (by decide) c]
  cases form with
  | icd =>
    rw [crcStep_icd, residue_xor, residue_xor, residue_crcEntry, residue_setWidth (by decide), byteShift]
    ring
  | xmodem =>
    rw [crcStep_xmodem, residue_xor, residue_crcEntry, residue_xor, byteShift]
    ring

/-! ## The remainder -/

/-- CRC16 is congruent to the message, shifted by 16 places under XMODEM. -/
theorem residue_crc16 (form : CrcForm) (d : Bytes) :
    residue (crc16 form d) = AdjoinRoot.mk generatorPoly (messagePoly d * X ^ byteShift form) := by
  induction d using List.reverseRecOn with
  | nil =>
    rw [crc16_nil, residue_zero]
    simp [messagePoly]
  | append_singleton d b ih =>
    rw [crc16_concat, residue_crcStep, ih, messagePoly_concat, residue, xClass, ← map_pow, ← map_pow, ← map_mul, ← map_mul,
      ← map_add]
    congr 1
    ring

theorem wordPoly_crc16 (form : CrcForm) (d : Bytes) :
    wordPoly (crc16 form d) = (messagePoly d * X ^ byteShift form) %ₘ generatorPoly := by
  have hself : wordPoly (crc16 form d) %ₘ generatorPoly = wordPoly (crc16 form d) :=
    (modByMonic_eq_self_iff monic_generatorPoly).mpr (by rw [degree_generatorPoly]; exact degree_wordPoly_lt _)
  rw [← hself]
  exact modByMonic_eq_of_dvd_sub monic_generatorPoly (AdjoinRoot.mk_eq_mk.mp (residue_crc16 form d))

/-- Settles O16: congruent to the message and of degree below 16, CRC16 is the remainder. -/
theorem crc16IsAPolynomialRemainder : Obligations.Crc16IsAPolynomialRemainder := by
  refine fun s d => ⟨_, answers_crc16 s d, ?_⟩
  rw [wordPoly_crc16]
  cases s.cfg.crcForm with
  | icd => rw [byteShift, pow_zero, mul_one]
  | xmodem => rfl

/-! ## One byte changed -/

theorem crcStep_left_injective (form : CrcForm) (b : Byte) {c c' : BitVec 16} (h : crcStep form c b = crcStep form c' b) :
    c = c' := by
  have hres := congrArg residue h
  rw [residue_crcStep, residue_crcStep, add_left_inj] at hres
  exact residue_injective le_rfl ((isUnit_xClass.pow 8).mul_right_cancel hres)

theorem crcStep_right_injective (form : CrcForm) (c : BitVec 16) {b b' : Byte} (h : crcStep form c b = crcStep form c b') :
    b = b' := by
  have hres := congrArg residue h
  rw [residue_crcStep, residue_crcStep, add_right_inj] at hres
  exact residue_injective (by decide) ((isUnit_xClass.pow _).mul_right_cancel hres)

/-- Different CRCs stay different, whatever bytes follow. -/
theorem foldl_crcStep_injective (form : CrcForm) (d : Bytes) {c c' : BitVec 16}
    (h : d.foldl (crcStep form) c = d.foldl (crcStep form) c') : c = c' := by
  induction d generalizing c c' with
  | nil => exact h
  | cons b d ih => exact crcStep_left_injective form b (ih h)

/-- Payloads that differ in one byte only have different CRCs. -/
theorem crc16_ne_of_byte_ne (form : CrcForm) (pre post : Bytes) {b b' : Byte} (h : b ≠ b') :
    crc16 form (pre ++ b :: post) ≠ crc16 form (pre ++ b' :: post) := by
  rw [crc16_append, crc16_append]
  exact fun heq => h (crcStep_right_injective form _ (foldl_crcStep_injective form post heq))

/-- Bit `j` is set in the byte `flipBit` xors in. -/
theorem getLsbD_bit {j : Nat} (h : j < 8) : BitVec.getLsbD ((1 <<< j : Nat) : Byte) j = true := by
  simp [BitVec.getLsbD_ofNat, h]

/-- The inverted bit differs. -/
theorem xor_bit_ne (b : Byte) {j : Nat} (h : j < 8) : b ^^^ ((1 <<< j : Nat) : Byte) ≠ b := by
  intro heq
  have hbit := congrArg (fun v : Byte => v.getLsbD j) heq
  simp only [BitVec.getLsbD_xor, getLsbD_bit h, Bool.xor_true, Bool.not_eq_self] at hbit

/-- A byte string around the place of one of its bytes. -/
theorem set_eq_append {p : Bytes} {k : Nat} (hk : k < p.length) (b : Byte) :
    p.set k b = p.take k ++ b :: p.drop (k + 1) := by
  rw [List.set_eq_take_append_cons_drop, if_pos hk]

theorem crc16_flipBit_ne (form : CrcForm) {p : Bytes} {k j : Nat} (hk : k < p.length) (hj : j < 8) :
    crc16 form (flipBit p k j) ≠ crc16 form p := by
  have hbyte : p.getD k 0 ^^^ ((1 <<< j : Nat) : Byte) ≠ p[k] := by
    rw [List.getD_eq_getElem _ _ hk]
    exact xor_bit_ne _ hj
  have hne := crc16_ne_of_byte_ne form (p.take k) (p.drop (k + 1)) hbyte
  rwa [← set_eq_append hk, ← set_eq_append hk, List.set_getElem_self] at hne

theorem flipBit_ne_nil {p : Bytes} {k : Nat} (hk : k < p.length) (j : Nat) : flipBit p k j ≠ [] := by
  rw [← List.length_pos_iff, flipBit, List.length_set]
  omega

/-- Settles O17: the CRCs differ, and UNWRAP compares the altered payload's CRC with the original one. -/
theorem flippedBitIsDetected : Obligations.FlippedBitIsDetected := by
  intro s p k j hk hj
  have hcrc := crc16_flipBit_ne s.cfg.crcForm hk hj
  have hunwrap := unwrap_escape s.cfg.crcForm (flipBit_ne_nil hk j) ((crc16 s.cfg.crcForm p).extractLsb' 0 8)
    ((crc16 s.cfg.crcForm p).extractLsb' 8 8)
  rw [append_halves16, if_neg hcrc] at hunwrap
  exact ⟨_, _, answers_crc16 s p, answers_crc16 s _, hcrc, _, answers_escape s _, answers_unwrap_of_error hunwrap⟩

end Sys2Proof.Machine
end
